-- ==== Sys2Proof/Word.lean ====
section
/-! DEFINITION. The words of the block: 8-bit channel words, 16-bit command words, and one channel's bit of a word
(00_scope.md R6, R7, R8; 30_encoding.md R80). -/

namespace Sys2Proof

/-- A channel word: `W` = 8 bits, bit `i` belongs to channel `i` (00_scope.md R6, R7). -/
abbrev Word := BitVec 8

/-- A command word `cmd[15:0]` (30_encoding.md R80). -/
abbrev CommandWord := BitVec 16

/-- A channel number, 0 to 7 (30_encoding.md R79). -/
abbrev Channel := Fin 8

/-- Bit `i` of a word: channel `i`'s bit, bit 0 the least significant (00_scope.md R7, R8: `x[i]`). -/
def bit (w : Word) (i : Channel) : Bool := w.getLsbD i.val

/-- A word of eight ones, 0xFF. -/
def allOnes : Word := 0xFF#8

end Sys2Proof
end

