-- ==== Sys2Proof/Syntax.lean ====
section
/-! DEFINITION. The block's four operations, one constructor per row of spec/opcode_table.json (30_encoding.md R80, R82). -/

namespace Sys2Proof

/-- The operations a context issues (00_scope.md R3, R10). Every operand is one 8-bit word, used exactly as it stands
(30_encoding.md R81). -/
inductive Instr where
  /-- INIT `r`: startup initialization from the raw input word `r`, the block's reset (42_startup_init.md R150). -/
  | init (r : Word)
  /-- SAMPLE `r`: one tick of the Sampler with the raw input word `r` (40_sampler.md R100). -/
  | sample (r : Word)
  /-- POLL `mask`: the atomic query and acknowledge of press events (41_query_ack.md R130). -/
  | poll (mask : Word)
  /-- READ: read the debounced state (41_query_ack.md R140). -/
  | read
  deriving DecidableEq, Repr

end Sys2Proof
end

