-- ==== Sys2Proof/WellFormed.lean ====
section
/-! DEFINITION. What is well formed: an operation, a command word as the opcode table lists it, and the numbers the assembler
accepts. -/

namespace Sys2Proof

/-- An operation is well formed. No operand has an illegal value: a mask is "any bit pattern over the channel word"
(30_encoding.md R79; 41_query_ack.md R135), a raw input word is any pin reading (70_reset_and_hazards.md R189), and READ has
none (41_query_ack.md R140). -/
def Instr.wellFormed : Instr → Bool
  | .init _ => true
  | .sample _ => true
  | .poll _ => true
  | .read => true

/-- A command word lies in one of the four rows of the opcode map, in the map's match and mask terms (30_encoding.md R82). -/
def commandWellFormed (w : CommandWord) : Bool :=
  (w &&& 0xFF00#16) == 0x1000#16 || (w &&& 0xFF00#16) == 0x2000#16 || (w &&& 0xFF00#16) == 0x3000#16 || w == 0x4000#16

/-- An assembler literal `<v8>` is at most 255 (30_encoding.md R86). -/
def isByteLiteral (n : Nat) : Bool := n ≤ 255

/-- The count `<k>` of HOLD is at least 1 (30_encoding.md R87). -/
def isHoldCount (k : Nat) : Bool := 1 ≤ k

/-- The channel `<c>` of PRESSCH is 0 to 7 (30_encoding.md R87). -/
def isChannelNumber (c : Nat) : Bool := c ≤ 7

end Sys2Proof
end

