-- ==== Sys2Proof/Decode.lean ====
section
/-! DEFINITION. The decoder of the 16-bit command word (30_encoding.md R80 to R85), and after it the encoder, written from the
same table. -/

namespace Sys2Proof

/-- Why a command word spells no operation (30_encoding.md R84; 60_exceptions.md R165). -/
inductive Rejection where
  /-- The word is outside the four rows of the opcode map: RESERVED_ENCODING. -/
  | reservedEncoding
  deriving DecidableEq, Repr

/-- `op`, `cmd[15:12]`: the operation selector (30_encoding.md R80). -/
def opField (w : CommandWord) : BitVec 4 := w.extractLsb' 12 4

/-- `z`, `cmd[11:8]`: reserved, must be 0000 (30_encoding.md R80). -/
def zField (w : CommandWord) : BitVec 4 := w.extractLsb' 8 4

/-- `v`, `cmd[7:0]`: the operand word (30_encoding.md R80). -/
def vField (w : CommandWord) : Word := w.extractLsb' 0 8

/-- Decoding, total on any 16 bits, test by test as the spec's pseudocode has them (30_encoding.md R83). -/
def decode (w : CommandWord) : Except Rejection Instr :=
  if zField w ≠ 0#4 then .error .reservedEncoding
  else if opField w = 0b0001#4 then .ok (.init (vField w))
  else if opField w = 0b0010#4 then .ok (.sample (vField w))
  else if opField w = 0b0011#4 then .ok (.poll (vField w))
  else if opField w = 0b0100#4 ∧ vField w = 0x00#8 then .ok .read
  else .error .reservedEncoding

/-- A command word from its selector in bits 15 to 12 and its operand in bits 7 to 0; bits 11 to 8, `z`, stay 0000
(30_encoding.md R80); a field shown as a wider value is zero-extended (R81). -/
def packCommand (op : BitVec 4) (v : Word) : CommandWord := op.zeroExtend 16 <<< 12 ||| v.zeroExtend 16

/-- The command word of an operation (30_encoding.md R82). -/
def encode : Instr → CommandWord
  | .init r => packCommand 0b0001#4 r
  | .sample r => packCommand 0b0010#4 r
  | .poll mask => packCommand 0b0011#4 mask
  | .read => packCommand 0b0100#4 0x00#8

/-- The command word that the bits `w` of an opcode-table row of `nbits` bits spell: bits from `nbits` up are 0. Every command
word is one 16-bit word with no byte order, so the table's bit numbers are the word's own (20_memory.md R41;
30_encoding.md R85). -/
def tableCommandWord (nbits w : Nat) : CommandWord := BitVec.ofNat 16 (w % 2 ^ nbits)

/-- The instruction the decoder reads from an opcode-table word; none where it refuses. -/
def decodeTableWord (nbits w : Nat) : Option Instr :=
  match decode (tableCommandWord nbits w) with
  | .ok i => some i
  | .error _ => none

end Sys2Proof
end

