-- ==== Sys2Proof/Config.lean ====
section
/-! DEFINITION. What an implementation fixes, and the free values (00_scope.md R6). A constant with no body is OPEN: nothing in
Lean can know its value, so a theorem about it holds for every value. -/

namespace Sys2Proof

/-- The order in which a SAMPLE and a POLL of one clock cycle are serialized (20_memory.md R46). -/
inductive SameCycleOrder where
  /-- The POLL sees the `P` the SAMPLE has just written. -/
  | sampleFirst
  /-- The POLL sees `P` as it was before the SAMPLE. -/
  | pollFirst
  deriving DecidableEq, Repr, Inhabited

/-- The synchronizer on `q_req`: `SYNC_STAGES` is 0, or an integer of at least 2 (00_scope.md R6). -/
inductive SyncStages where
  /-- `SYNC_STAGES` = 0: the requester is in the block's clock domain. -/
  | direct
  /-- `SYNC_STAGES` = `extra` + 2: a chain of flip-flops. -/
  | chain (extra : Nat)
  deriving DecidableEq, Repr, Inhabited

/-- The number `SYNC_STAGES`. -/
def SyncStages.depth : SyncStages → Nat
  | .direct => 0
  | .chain extra => extra + 2

/-- `W`, the channel word width: 8, fixed (00_scope.md R6). -/
def Config.width : Nat := 8

/-- `DEPTH`, the counter bits per channel: 2, fixed (00_scope.md R6). -/
def Config.counterDepth : Nat := 2

/-- `WINDOW`, the consecutive ticks that confirm a change: 4, a consequence of `DEPTH` (00_scope.md R6). -/
def Config.window : Nat := 2 ^ Config.counterDepth

/-- `SAME_CYCLE_ORDER`, OPEN: the order taken at the clock edge of the given number. The model admits both orders at every
edge, and an implementation that fixes one is the constant function. DESIGN CHOICE, safe: log entry 4. -/
opaque Config.sameCycleOrder : Nat → SameCycleOrder

/-- `SYNC_STAGES`, OPEN (20_memory.md R50). DESIGN CHOICE, safe: log entry 5. -/
opaque Config.syncStages : SyncStages

/-- One less than `TICK_PERIOD`, OPEN: every period of at least one unit is this number and one more. DESIGN CHOICE, safe:
log entry 6. -/
opaque Config.tickPeriodLessOne : Nat

/-- `TICK_PERIOD`, OPEN: the time between ticks, at least one unit of the reader's choice (00_scope.md R6). No step depends on
it. -/
def Config.tickPeriod : Nat := Config.tickPeriodLessOne + 1

/-- Which bits a reader in another clock domain takes from the value before the edge of the given number: bit 1 takes the old
bit, bit 0 the new one (70_reset_and_hazards.md R188: a draw per bit). DESIGN CHOICE, safe: log entry 7. -/
opaque Config.foreignPick : Nat → Word

end Sys2Proof
end

