-- ==== Sys2Proof/Machine/State.lean ====
section
/-! DEFINITION. The machine's state, all of it plain data; the reasons a step can stop; and the state at power-up. -/

namespace Sys2Proof.Machine

/-- The input ports as one rising clock edge samples them (30_encoding.md R70; 20_memory.md R58). `clk` is the edge itself. -/
structure Ports where
  /-- `init`: synchronous initialization, active-high (30_encoding.md R75). -/
  init : Bool
  /-- `tick`: the sample strobe, active-high (30_encoding.md R72). -/
  tick : Bool
  /-- `raw_in`: the raw channel levels, active-low (30_encoding.md R73, R77). -/
  rawIn : Word
  /-- `q_req`: the query request level (20_memory.md R50). -/
  qReq : Bool
  /-- `q_mask`: the query mask (20_memory.md R50). -/
  qMask : Word
  deriving DecidableEq, Repr

/-- The output ports, every one the output of a register (20_memory.md R58; 30_encoding.md R70). -/
structure OutPorts where
  /-- `q_ack`: the query acknowledge level. -/
  qAck : Bool
  /-- `q_matched`: the query result. -/
  qMatched : Word
  /-- `state_out`: the debounced state word (30_encoding.md R76). -/
  stateOut : Word
  deriving DecidableEq, Repr

/-- One thing the contexts present to the block (10_state.md R31, R34). -/
inductive Input where
  /-- A command word: one operation at operation level (30_encoding.md R80; 20_memory.md R57). -/
  | command (cmd : CommandWord)
  /-- One rising clock edge with these input ports (20_memory.md R58). -/
  | edge (io : Ports)
  /-- One rising clock edge, and a reader in another clock domain samples `state_out` around it
  (70_reset_and_hazards.md R188). -/
  | edgeForeignRead (io : Ports)
  deriving DecidableEq, Repr

/-- An output of an operation (30_encoding.md R88). -/
inductive Result where
  /-- What a POLL returned: its `matched` word (41_query_ack.md R130). -/
  | poll (matched : Word)
  /-- What a READ returned: `D` (41_query_ack.md R140). -/
  | read (level : Word)
  /-- What a reader in another clock domain saw on `state_out` (70_reset_and_hazards.md R188). Its place among the outputs of its
  edge is the model's. DESIGN CHOICE, unsafe: log entry 20. -/
  | foreignRead (seen : Word)
  deriving DecidableEq, Repr

/-- The operation or cycle at which a fault arose (60_exceptions.md R162). -/
inductive FaultSite where
  /-- An operation of a command stream. -/
  | operation (op : Instr)
  /-- The clock edge of this number, counted from 0 at power-up. -/
  | cycle (n : Nat)
  deriving DecidableEq, Repr

/-- The model's faults (60_exceptions.md R162). None is a hardware exception (R160): each records that the host broke a
precondition the hardware does not check. -/
inductive Fault where
  /-- Code 1: SAMPLE, POLL or READ before the first INIT (60_exceptions.md R163). Raised by execSample, execPoll and execRead
  (Machine/Ops.lean: whenInitialised), by clockEdge (Machine/ClockEdge.lean) and by foreignReadEdge
  (Machine/ForeignRead.lean). Safe: hardware would go on from unknown values. -/
  | uninitialised (at_ : FaultSite)
  /-- Code 2: a requester or host breaks the query handshake (60_exceptions.md R164). Raised by clockEdge. Safe: hardware would
  go on in a way the spec does not give. -/
  | handshakeViolation (at_ : FaultSite)
  /-- Code 3: a second SAMPLE begins before the first completes (60_exceptions.md R166). Nothing raises it: SAMPLE is one
  transition here, where the spec says it cannot arise. Safe. -/
  | reentry (at_ : FaultSite)
  deriving DecidableEq, Repr

/-- Why a step gives an input no meaning. -/
inductive Refusal where
  /-- exec has no meaning for this instruction yet. Raised by no arm of exec now. Safe. -/
  | notModelled (mnemonic : String)
  /-- RESERVED_ENCODING: the command word spells no operation (30_encoding.md R84; 60_exceptions.md R165). Raised by step
  through runCommand (Machine/Stream.lean). Safe: no such word exists on the hardware. -/
  | reservedEncoding
  deriving DecidableEq, Repr

/-- The block's registers (10_state.md R20 to R28), the ghost flag (R29), and the model's own record of the protocol, the
inputs still to come and the outputs so far. -/
structure State where
  /-- `D`, debounced_state: 1 is pressed, confirmed stable (10_state.md R20). -/
  d : Word
  /-- `P`, pending_press: 1 is a press not yet acknowledged (10_state.md R21). -/
  p : Word
  /-- `CA`, counter_a: the low bit of each channel's counter (10_state.md R22). -/
  ca : Word
  /-- `CB`, counter_b: the high bit of each channel's counter (10_state.md R23). -/
  cb : Word
  /-- `q_ack` (10_state.md R26). -/
  qAck : Bool
  /-- `q_matched` (10_state.md R27). -/
  qMatched : Word
  /-- `q_req_sync`: the synchronizer chain, `q_req_sync[0]` first; its length is `SYNC_STAGES` (10_state.md R28). -/
  qReqSync : List Bool
  /-- The model's ghost flag: an INIT has been performed (10_state.md R29). -/
  initialised : Bool
  /-- The model's own: `q_req` as the last clock edge sampled it (for 20_memory.md R56). -/
  reqPrev : Bool
  /-- The model's own: `q_mask` in the cycle `q_req` last rose (for 20_memory.md R56). -/
  reqMask : Word
  /-- The model's own: clock edges so far (for 60_exceptions.md R162 and the free values of Config). -/
  cycle : Nat
  /-- The model's own: what the contexts issue next, oldest first (10_state.md R34). -/
  inputs : List Input
  /-- The model's own: the outputs so far, oldest first (30_encoding.md R88). -/
  results : List Result
  deriving DecidableEq, Repr

/-- The machine at power-up, before the first INIT, with nothing issued. The spec gives the registers no value there
(10_state.md R33) and faults what would read them (60_exceptions.md R163); the values named here are those INIT leaves where
R32 gives a constant, and zero elsewhere. DESIGN CHOICE, unsafe: log entries 1, 2, 3. -/
def State.reset : State where
  d := 0x00#8
  p := 0x00#8
  ca := 0xFF#8
  cb := 0xFF#8
  qAck := false
  qMatched := 0x00#8
  qReqSync := List.replicate Config.syncStages.depth false
  initialised := false
  reqPrev := false
  reqMask := 0x00#8
  cycle := 0
  inputs := []
  results := []

end Sys2Proof.Machine
end

