-- ==== Sys2Proof/Machine/Ops.lean ====
section
/-! DEFINITION. The named operations over the state that the meanings share. The block has no memory (20_memory.md R40) and takes
no exception: it has no trap entry, no saved state and no trap return (60_exceptions.md R160, R170, R171), so no operation here
is one. -/

namespace Sys2Proof.Machine

/-- Give an operation's output to the context that issued it (30_encoding.md R88). -/
def record (r : Result) (s : State) : State := { s with results := s.results ++ [r] }

/-- Write the press accumulator `P` (10_state.md R21). -/
def writePending (p : Word) (s : State) : State := { s with p := p }

/-- Write all four channel words in one transition (00_scope.md R10; 20_memory.md R42). -/
def writeWords (d p ca cb : Word) (s : State) : State := { s with d := d, p := p, ca := ca, cb := cb }

/-- Put the query handshake into its idle state: `q_ack` 0, `q_matched` 0x00 (10_state.md R32). -/
def clearHandshake (s : State) : State := { s with qAck := false, qMatched := 0x00#8 }

/-- Mark that an INIT has been performed (10_state.md R29). -/
def markInitialised (s : State) : State := { s with initialised := true }

/-- Operation `op` is performed as `k` says if an INIT has been performed, and else is Fault(UNINITIALISED) at that operation
(60_exceptions.md R163). -/
def whenInitialised (op : Instr) (s : State) (k : State → Host.Outcome State Fault Refusal) :
    Host.Outcome State Fault Refusal :=
  if s.initialised then k s else .fault (.uninitialised (.operation op))

/-- The output ports: register outputs, none depending on an input of the same cycle (20_memory.md R58; 30_encoding.md R76). -/
def outputs (s : State) : OutPorts := { qAck := s.qAck, qMatched := s.qMatched, stateOut := s.d }

/-- The code of a fault (60_exceptions.md R162). -/
def faultCode : Fault → Nat
  | .uninitialised _ => 1
  | .handshakeViolation _ => 2
  | .reentry _ => 3

end Sys2Proof.Machine
end

