-- ==== Sys2Proof/Machine/Operands.lean ====
section
/-! DEFINITION. The operand forms: the raw input word (INIT, SAMPLE) and the mask (POLL), each one 8-bit word used exactly as it
stands (30_encoding.md R81). -/

namespace Sys2Proof.Machine

/-- The baseline a raw input word names: raw levels are active-low, levels of `D` active-high (30_encoding.md R77, R78;
42_startup_init.md R150). -/
def pressedLevels (r : Word) : Word := ~~~r

/-- Step 1 of SAMPLE, `changed`: the channels whose raw level disagrees with the recorded state (40_sampler.md R101). -/
def changedWord (d r : Word) : Word := d ^^^ pressedLevels r

/-- `matched`: the channels of the mask that have an unacknowledged press (41_query_ack.md R130, R131). -/
def matchedWord (mask p : Word) : Word := mask &&& p

end Sys2Proof.Machine
end

