-- ==== Sys2Proof/Machine/PressAccumulator.lean ====
section
/-! DEFINITION. The press_event_accumulator: how `P` gains bits in a SAMPLE and loses them in a POLL (40_sampler.md R106;
41_query_ack.md R130). -/

namespace Sys2Proof.Machine

/-- Step 6 of SAMPLE: the channels that just toggled and are now pressed, in the NEW `D`, become pending (40_sampler.md R106). -/
def latchPresses (p newD settled : Word) : Word := p ||| (newD &&& settled)

/-- What POLL leaves in `P`: the reported bits cleared (41_query_ack.md R130). -/
def acknowledge (p matched : Word) : Word := p ^^^ matched

end Sys2Proof.Machine
end

