-- ==== Sys2Proof/Machine/QueryAck.lean ====
section
/-! DEFINITION. POLL, the atomic query and acknowledge, and READ, the read of the debounced state (41_query_ack.md). -/

namespace Sys2Proof.Machine

/-- POLL's one indivisible read-modify-write of `P`, and its result (41_query_ack.md R130; 20_memory.md R43). -/
def pollTransition (mask : Word) (s : State) : State :=
  let matched := matchedWord mask s.p
  record (.poll matched) (writePending (acknowledge s.p matched) s)

/-- POLL `mask` (41_query_ack.md R130). At operation level it writes only `P` (R136; 20_memory.md R57). -/
def execPoll (mask : Word) (s : State) : Host.Outcome State Fault Refusal :=
  whenInitialised (.poll mask) s fun s => .next (pollTransition mask s)

/-- READ's result: `D`, whole, as the last operation left it (41_query_ack.md R140; 20_memory.md R42). -/
def readTransition (s : State) : State := record (.read (outputs s).stateOut) s

/-- READ (41_query_ack.md R140). It writes no register. -/
def execRead (s : State) : Host.Outcome State Fault Refusal :=
  whenInitialised .read s fun s => .next (readTransition s)

end Sys2Proof.Machine
end

