-- ==== Sys2Proof/Machine/CounterPair.lean ====
section
/-! DEFINITION. The debounce_counter_pair: the per-channel two-stage filter, by the spec's boolean formulas in its order of data
dependence (40_sampler.md R102 to R105, R107). -/

namespace Sys2Proof.Machine

/-- Step 2: the new `CA` (40_sampler.md R102). -/
def nextCounterA (ca changed : Word) : Word := ~~~(ca &&& changed)

/-- Step 3: the new `CB`, from the NEW `CA` (40_sampler.md R103). -/
def nextCounterB (newCa cb changed : Word) : Word := newCa ^^^ (cb &&& changed)

/-- Step 4: `settled_change`, from the NEW `CA` and the NEW `CB` (40_sampler.md R104). -/
def settledChange (changed newCa newCb : Word) : Word := changed &&& newCa &&& newCb

/-- Step 5: the new `D` (40_sampler.md R105). -/
def toggledState (d settled : Word) : Word := d ^^^ settled

end Sys2Proof.Machine
end

