-- ==== Sys2Proof/Machine/Sampler.lean ====
section
/-! DEFINITION. SAMPLE: one tick of the Sampler (40_sampler.md R100). -/

namespace Sys2Proof.Machine

/-- The six steps on one raw word `r`, read once, written as one transition (40_sampler.md R100, R120, R121). -/
def sampleTransition (r : Word) (s : State) : State :=
  let changed := changedWord s.d r
  let ca := nextCounterA s.ca changed
  let cb := nextCounterB ca s.cb changed
  let settled := settledChange changed ca cb
  let d := toggledState s.d settled
  writeWords d (latchPresses s.p d settled) ca cb s

/-- SAMPLE `r` (40_sampler.md R100). -/
def execSample (r : Word) (s : State) : Host.Outcome State Fault Refusal :=
  whenInitialised (.sample r) s fun s => .next (sampleTransition r s)

end Sys2Proof.Machine
end

