-- ==== Sys2Proof/Machine/StartupInit.lean ====
section
/-! DEFINITION. INIT: startup initialization, the block's only reset (42_startup_init.md R150; 70_reset_and_hazards.md R180). -/

namespace Sys2Proof.Machine

/-- What INIT writes: the baseline from the raw levels, the settled counters, no pending press, the idle handshake
(42_startup_init.md R150; 10_state.md R32). The synchronizer chain is not reset (10_state.md R28). -/
def initTransition (r : Word) (s : State) : State :=
  markInitialised (clearHandshake (writeWords (pressedLevels r) 0x00#8 allOnes allOnes s))

/-- INIT `r` (42_startup_init.md R150). It reads no state and raises nothing of its own; the port-level check that no query is in
progress is clockEdge's (42_startup_init.md R153). -/
def execInit (r : Word) (s : State) : Host.Outcome State Fault Refusal := .next (initTransition r s)

end Sys2Proof.Machine
end

