-- ==== Sys2Proof/Machine/Dispatch.lean ====
section
/-! DEFINITION. One arm per operation: what each does to the state. -/

namespace Sys2Proof.Machine

def exec (i : Instr) (s : State) : Host.Outcome State Fault Refusal :=
  match i with
  | .init r => Sys2Proof.Machine.execInit r s
  | .sample r => Sys2Proof.Machine.execSample r s
  | .poll mask => Sys2Proof.Machine.execPoll mask s
  | .read => Sys2Proof.Machine.execRead s

end Sys2Proof.Machine
end

