-- ==== Sys2Proof/Machine/Flags.lean ====
section
/-! DEFINITION. The status bit. The block has no flags or condition codes and no operation writes any (10_state.md R35); its only
status bit is `q_ack` (10_state.md R26), and this file says when it rises and falls. -/

namespace Sys2Proof.Machine

/-- `q_req_s`: `q_req` as the block sees it at an edge, `q_req` itself with no synchronizer and else the last flip-flop of the
chain (20_memory.md R50). -/
def requestSeen (io : Ports) (s : State) : Bool :=
  match s.qReqSync.getLast? with
  | none => io.qReq
  | some b => b

/-- `doQ`: the request is accepted at this edge, so `q_ack` rises (20_memory.md R51, R58). -/
def acceptsQuery (io : Ports) (s : State) : Bool := requestSeen io s && !s.qAck

/-- The acknowledge is released at this edge, so `q_ack` falls (20_memory.md R52). -/
def releasesAck (io : Ports) (s : State) : Bool := !requestSeen io s && s.qAck

/-- `q_ack` rises and `q_matched` takes the result of the POLL just performed (20_memory.md R51). -/
def raiseAck (matched : Word) (s : State) : State := { s with qAck := true, qMatched := matched }

/-- `q_ack` falls; `q_matched` is left (20_memory.md R52). -/
def lowerAck (s : State) : State := { s with qAck := false }

end Sys2Proof.Machine
end

