-- ==== Sys2Proof/Machine/Handshake.lean ====
section
/-! DEFINITION. The query handshake around an operation: the synchronizer, what an edge samples of the request, and the protocol
the host and the requester owe the block (20_memory.md R50, R54, R56). -/

namespace Sys2Proof.Machine

/-- The chain after an edge: `q_req` enters at position 0 and every flip-flop takes the one before it (20_memory.md R50). With no
chain there is nothing to shift. -/
def shiftRequest (q : Bool) (chain : List Bool) : List Bool :=
  match chain with
  | [] => []
  | b :: rest => q :: (b :: rest).dropLast

/-- `q_req` rises in this cycle. -/
def requestRises (io : Ports) (s : State) : Bool := io.qReq && !s.reqPrev

/-- `q_mask` differs from its value in the cycle `q_req` rose, in a cycle with `q_req` = 1 and `q_ack` = 0 (20_memory.md R56). -/
def maskChanged (io : Ports) (s : State) : Bool :=
  io.qReq && s.reqPrev && !s.qAck && (io.qMask != s.reqMask)

/-- `q_req` falls while `q_ack` = 0, before the block has accepted the request (20_memory.md R56). -/
def requestWithdrawn (io : Ports) (s : State) : Bool := !io.qReq && s.reqPrev && !s.qAck

/-- `init` = 1 while `q_req_s` = 1 or `q_ack` = 1 (20_memory.md R56; 42_startup_init.md R153). -/
def initDuringQuery (io : Ports) (s : State) : Bool := io.init && (requestSeen io s || s.qAck)

/-- `q_req` rises while `q_ack` = 1: a new request that did not wait (20_memory.md R54 duties 1 and 5;
70_reset_and_hazards.md R190). DEDUCED, safe: log entry 8. -/
def requestTooEarly (io : Ports) (s : State) : Bool := requestRises io s && s.qAck

/-- A requester or host breaks the handshake in this cycle (60_exceptions.md R164; 70_reset_and_hazards.md R190). -/
def handshakeViolated (io : Ports) (s : State) : Bool :=
  maskChanged io s || requestWithdrawn io s || initDuringQuery io s || requestTooEarly io s

/-- What every edge samples beside the operations: the chain shifts, the request level and the mask at its rise are remembered,
and the edge is counted (10_state.md R28; 20_memory.md R50, R56). -/
def sampleRequest (io : Ports) (s : State) : State :=
  { s with
    qReqSync := shiftRequest io.qReq s.qReqSync
    reqPrev := io.qReq
    reqMask := if requestRises io s then io.qMask else s.reqMask
    cycle := s.cycle + 1 }

end Sys2Proof.Machine
end

