-- ==== Sys2Proof/Machine/ClockEdge.lean ====
section
/-! DEFINITION. The clock-edge step: what the whole block does at one rising edge of `clk` (20_memory.md R58). -/

namespace Sys2Proof.Machine

/-- A query is performed through the handshake: one POLL, and at the same edge `q_matched` takes its result and `q_ack` rises
(20_memory.md R51). -/
def pollThroughHandshake (mask : Word) (s : State) : State :=
  raiseAck (matchedWord mask s.p) (pollTransition mask s)

/-- The operations of an edge with `init` = 0, serialized (20_memory.md R46, R58), and the release of the acknowledge (R52). -/
def performEdge (order : SameCycleOrder) (io : Ports) (s : State) : State :=
  if acceptsQuery io s then
    if io.tick then
      match order with
      | .sampleFirst => pollThroughHandshake io.qMask (sampleTransition io.rawIn s)
      | .pollFirst => sampleTransition io.rawIn (pollThroughHandshake io.qMask s)
    else pollThroughHandshake io.qMask s
  else
    let ticked := if io.tick then sampleTransition io.rawIn s else s
    if releasesAck io s then lowerAck ticked else ticked

/-- One rising edge of `clk` with input ports `io`, under a serialization order (20_memory.md R58). A handshake violation is
recorded before anything else, INIT takes the cycle and drops a tick, and HANDSHAKE_VIOLATION comes before UNINITIALISED
(42_startup_init.md R152, R153; 60_exceptions.md R169). -/
def clockEdge (order : SameCycleOrder) (io : Ports) (s : State) : Host.Outcome State Fault Refusal :=
  if handshakeViolated io s then .fault (.handshakeViolation (.cycle s.cycle))
  else if io.init then .next (sampleRequest io (initTransition io.rawIn s))
  else if !s.initialised && (io.tick || acceptsQuery io s) then .fault (.uninitialised (.cycle s.cycle))
  else .next (sampleRequest io (performEdge order io s))

/-- A clock edge under the order that is open at this edge (20_memory.md R46). -/
def runEdge (io : Ports) (s : State) : Host.Outcome State Fault Refusal :=
  clockEdge (Config.sameCycleOrder s.cycle) io s

end Sys2Proof.Machine
end

