-- ==== Sys2Proof/Machine/ForeignRead.lean ====
section
/-! DEFINITION. A read of `state_out` from another clock domain (70_reset_and_hazards.md R188). -/

namespace Sys2Proof.Machine

/-- What a reader in another clock domain sees around an edge: each bit from the value before the edge or from the value after
it, as `pick` says (70_reset_and_hazards.md R188). -/
def tornWord (pick before after : Word) : Word := (before &&& pick) ||| (after &&& ~~~pick)

/-- A clock edge with a reader in another clock domain sampling `state_out` around it. Before the first INIT that reader could see
an unspecified bit, so it is Fault(UNINITIALISED) (60_exceptions.md R163). DESIGN CHOICE, safe: log entry 7. What it saw stands
in the results after the result of a POLL that the edge performs, on whose order the spec is silent. DESIGN CHOICE, unsafe: log
entry 20. -/
def foreignReadEdge (order : SameCycleOrder) (pick : Word) (io : Ports) (s : State) : Host.Outcome State Fault Refusal :=
  match clockEdge order io s with
  | .next t =>
    if s.initialised then
      .next (record (.foreignRead (tornWord pick (outputs s).stateOut (outputs t).stateOut)) t)
    else .fault (.uninitialised (.cycle s.cycle))
  | .fault f => .fault f
  | .refused r => .refused r

/-- The same under the order and the draw that are open at this edge. -/
def runForeignReadEdge (io : Ports) (s : State) : Host.Outcome State Fault Refusal :=
  foreignReadEdge (Config.sameCycleOrder s.cycle) (Config.foreignPick s.cycle) io s

end Sys2Proof.Machine
end

