-- ==== Sys2Proof/Machine/Stream.lean ====
section
/-! DEFINITION. How the next input reaches the block. The block fetches nothing (20_memory.md R62): its program is the stream of
inputs the contexts issue (10_state.md R34), which State holds. -/

namespace Sys2Proof.Machine

/-- The state with its stream of inputs replaced. -/
def withInputs (inputs : List Input) (s : State) : State := { s with inputs := inputs }

/-- Present these command words to the block, after what is already issued. -/
def issueCommands (cmds : List CommandWord) (s : State) : State := withInputs (s.inputs ++ cmds.map .command) s

/-- No input is issued: no operation is performed, so every register keeps its value (10_state.md R34).
DESIGN CHOICE, safe: log entry 3. -/
def runNothing (s : State) : Host.Outcome State Fault Refusal := .next s

/-- A command word: its operation is performed, or it is refused before anything is performed (30_encoding.md R84;
60_exceptions.md R165, R169). -/
def runCommand (cmd : CommandWord) (s : State) : Host.Outcome State Fault Refusal :=
  match decode cmd with
  | .ok i => exec i s
  | .error .reservedEncoding => .refused .reservedEncoding

/-- One input of the stream. -/
def runInput (input : Input) (s : State) : Host.Outcome State Fault Refusal :=
  match input with
  | .command cmd => runCommand cmd s
  | .edge io => runEdge io s
  | .edgeForeignRead io => runForeignReadEdge io s

/-- Put a command word before everything the stream holds. -/
def pushCommand (cmd : CommandWord) (s : State) : State := withInputs (.command cmd :: s.inputs) s

end Sys2Proof.Machine
end

