-- ==== Sys2Proof/Machine/Step.lean ====
section
/-! DEFINITION. One step of the machine: the oldest input of the stream is taken off it and run. -/

namespace Sys2Proof.Machine

/-- One step (20_memory.md R45: one entry of the serialization, or one clock edge). -/
def step (s : State) : Host.Outcome State Fault Refusal :=
  match s.inputs with
  | [] => runNothing s
  | input :: rest => runInput input (withInputs rest s)

/-- The state with an opcode-table word as the very next input of the stream (log entry 3). -/
def State.withFetchWord (s : State) (nbits w : Nat) : State := pushCommand (tableCommandWord nbits w) s

end Sys2Proof.Machine
end

