-- ==== Sys2Proof/Machine/Assembler.lean ====
section
/-! DEFINITION. The assembler of a command stream: its syntax, its pseudo-instructions and their expansions (30_encoding.md R86,
R87). It is notation for driving the model; no part of the block reads text. The points the spec's syntax leaves open are DESIGN
CHOICES: log entry 14. -/

namespace Sys2Proof.Machine

/-- One line of assembler, its numbers not yet checked (30_encoding.md R86, R87). -/
inductive AsmLine where
  | init (v : Nat)
  | sample (v : Nat)
  | poll (v : Nat)
  | read
  /-- POLLALL. -/
  | pollAll
  /-- HOLD `<v8>`, `<k>`. -/
  | hold (v k : Nat)
  /-- PRESSCH `<c>`. -/
  | pressCh (c : Nat)
  deriving DecidableEq, Repr

/-- The numbers of a line lie in their ranges (30_encoding.md R86, R87). -/
def asmWellFormed : AsmLine → Bool
  | .init v => isByteLiteral v
  | .sample v => isByteLiteral v
  | .poll v => isByteLiteral v
  | .read => true
  | .pollAll => true
  | .hold v k => isByteLiteral v && isHoldCount k
  | .pressCh c => isChannelNumber c

/-- The operations a line stands for (30_encoding.md R87). -/
def expandLine : AsmLine → List Instr
  | .init v => [.init (BitVec.ofNat 8 v)]
  | .sample v => [.sample (BitVec.ofNat 8 v)]
  | .poll v => [.poll (BitVec.ofNat 8 v)]
  | .read => [.read]
  | .pollAll => [.poll 0xFF#8]
  | .hold v k => List.replicate k (.sample (BitVec.ofNat 8 v))
  | .pressCh c => [.poll (1#8 <<< c)]

/-- The command words of a line; none where a number is out of range, which the assembler refuses (30_encoding.md R86). -/
def assembleLine (l : AsmLine) : Option (List CommandWord) :=
  if asmWellFormed l then some ((expandLine l).map encode) else none

/-- The command stream of a list of lines; none if one of them is refused. -/
def assemble : List AsmLine → Option (List CommandWord)
  | [] => some []
  | l :: ls =>
    match assembleLine l, assemble ls with
    | some ws, some rest => some (ws ++ rest)
    | _, _ => none

/-- The value of a digit character; none if it is no digit. -/
def digitValue (c : Char) : Option Nat :=
  if '0' ≤ c ∧ c ≤ '9' then some (c.toNat - '0'.toNat)
  else if 'a' ≤ c ∧ c ≤ 'f' then some (c.toNat - 'a'.toNat + 10)
  else if 'A' ≤ c ∧ c ≤ 'F' then some (c.toNat - 'A'.toNat + 10)
  else none

/-- The digits read in a base, onto `acc`; none at a character that is no digit of the base. -/
def digitsOnto (base acc : Nat) : List Char → Option Nat
  | [] => some acc
  | c :: cs =>
    match digitValue c with
    | none => none
    | some n => if n < base then digitsOnto base (acc * base + n) cs else none

/-- A nonempty string of digits in a base. -/
def numberIn (base : Nat) (cs : List Char) : Option Nat := if cs.isEmpty then none else digitsOnto base 0 cs

/-- An 8-bit literal: `0x` hexadecimal, `0b` binary with 8 digits, bit 7 first, or decimal (30_encoding.md R86). -/
def literal : List Char → Option Nat
  | '0' :: 'x' :: cs => numberIn 16 cs
  | '0' :: 'b' :: cs => if cs.length = 8 then numberIn 2 cs else none
  | cs => numberIn 10 cs

/-- The part of a line before its comment: a `;` starts a comment (30_encoding.md R86). -/
def stripComment (cs : List Char) : List Char := cs.takeWhile (· != ';')

/-- The words of a line, a comma a word of its own; `word` holds the characters of the word being read, the last first. -/
def wordsOnto (word : List Char) : List Char → List (List Char)
  | [] => if word.isEmpty then [] else [word.reverse]
  | c :: cs =>
    let rest :=
      if c == ' ' || c == '\t' || c == '\r' then wordsOnto [] cs
      else if c == ',' then [','] :: wordsOnto [] cs
      else wordsOnto (c :: word) cs
    if c == ' ' || c == '\t' || c == '\r' || c == ',' then (if word.isEmpty then rest else word.reverse :: rest) else rest

/-- A mnemonic and its one literal. -/
def unaryLine (mk : Nat → AsmLine) (arg : List Char) : Option AsmLine := (literal arg).map mk

/-- One line of text: some of none for a line with nothing on it but a comment, none for a line outside the syntax
(30_encoding.md R86, R87). -/
def parseLine (cs : List Char) : Option (Option AsmLine) :=
  match wordsOnto [] (stripComment cs) with
  | [] => some none
  | [m] =>
    if m = ['R', 'E', 'A', 'D'] then some (some .read)
    else if m = ['P', 'O', 'L', 'L', 'A', 'L', 'L'] then some (some .pollAll)
    else none
  | [m, a] =>
    if m = ['I', 'N', 'I', 'T'] then (unaryLine .init a).map some
    else if m = ['S', 'A', 'M', 'P', 'L', 'E'] then (unaryLine .sample a).map some
    else if m = ['P', 'O', 'L', 'L'] then (unaryLine .poll a).map some
    else if m = ['P', 'R', 'E', 'S', 'S', 'C', 'H'] then ((numberIn 10 a).map .pressCh).map some
    else none
  | [m, a, comma, k] =>
    if m = ['H', 'O', 'L', 'D'] ∧ comma = [','] then
      match literal a, numberIn 10 k with
      | some v, some n => some (some (.hold v n))
      | _, _ => none
    else none
  | _ => none

/-- Lines of text; none if one of them is outside the syntax. -/
def parseLines : List (List Char) → Option (List AsmLine)
  | [] => some []
  | l :: ls =>
    match parseLine l, parseLines ls with
    | some none, some rest => some rest
    | some (some line), some rest => some (line :: rest)
    | _, _ => none

/-- The lines of a text, at its line feeds; `line` holds the characters of the line being read, the last first. -/
def linesOnto (line : List Char) : List Char → List (List Char)
  | [] => [line.reverse]
  | c :: cs => if c == '\n' then line.reverse :: linesOnto [] cs else linesOnto (c :: line) cs

/-- A program text as a command stream; none where the assembler refuses it. -/
def assembleText (cs : List Char) : Option (List CommandWord) :=
  match parseLines (linesOnto [] cs) with
  | none => none
  | some lines => assemble lines

end Sys2Proof.Machine
end

