-- ==== Sys2Proof/Machine/Contexts.lean ====
section
/-! DEFINITION. The contexts that issue operations (10_state.md R31; 60_exceptions.md R172). -/

namespace Sys2Proof.Machine

/-- The three agents that act on the block (10_state.md R31). -/
inductive Context where
  /-- Periodic, preemptive, high priority: issues SAMPLE. -/
  | sampler
  /-- Cooperative, lower priority: issues POLL and READ. -/
  | consumer
  /-- Applies INIT, delivers ticks, supplies `raw_in`. -/
  | host
  deriving DecidableEq, Repr

/-- The context that issues an operation: the split is fixed by the port it uses, not by a mode (60_exceptions.md R172). -/
def issuer : Instr → Context
  | .init _ => .host
  | .sample _ => .sampler
  | .poll _ => .consumer
  | .read => .consumer

end Sys2Proof.Machine
end

