-- ==== Sys2Proof/Safety.lean ====
section
/-! DEFINITION. The terms claims are stated in: sequences of operations and of edges, a channel's counter, the tally of presses,
a quiet requester, a serialization, and the machine's invariant. -/

namespace Sys2Proof.Machine

/-- A serialization: the operations performed one after the other, each on what all earlier ones left (20_memory.md R45). -/
def runOps : List Instr → State → Host.Outcome State Fault Refusal
  | [], s => .next s
  | op :: ops, s =>
    match exec op s with
    | .next t => runOps ops t
    | .fault f => .fault f
    | .refused r => .refused r

/-- Steps of the machine one after the other, ending at the first fault or refusal: a faulted or refused run is never final
(60_exceptions.md R162, R165). -/
def runSteps : Nat → State → Host.Outcome State Fault Refusal
  | 0, s => .next s
  | k + 1, s =>
    match step s with
    | .next t => runSteps k t
    | .fault f => .fault f
    | .refused r => .refused r

/-- Clock edges one after the other, each under the order that is open at it (20_memory.md R58). -/
def runEdges : List Ports → State → Host.Outcome State Fault Refusal
  | [], s => .next s
  | io :: ios, s =>
    match runEdge io s with
    | .next t => runEdges ios t
    | .fault f => .fault f
    | .refused r => .refused r

/-- The counter of a channel, `n_i = 2*CB[i] + CA[i]`, 0 to 3 (10_state.md R24). -/
def counterValue (i : Channel) (s : State) : Nat := 2 * (bit s.cb i).toNat + (bit s.ca i).toNat

/-- Channel `i` disagrees at a SAMPLE of `r`: `changed[i]` = 1 (40_sampler.md R101). -/
def disagrees (i : Channel) (r : Word) (s : State) : Bool := bit (changedWord s.d r) i

/-- The SAMPLEs of a list of raw input words. -/
def samples (rs : List Word) : List Instr := rs.map .sample

/-- Performing SAMPLEs from `s`, starting with a run of `k` disagreeing ones, the run of consecutive disagreeing SAMPLEs that ends
with the latest one (40_sampler.md R110). -/
def disagreeingRun (i : Channel) : Nat → List Word → State → Nat
  | k, [], _ => k
  | k, r :: rs, s => disagreeingRun i (if disagrees i r s then k + 1 else 0) rs (sampleTransition r s)

/-- The run of consecutive disagreeing SAMPLEs of channel `i` after SAMPLE `r`, with `k` of them before it (40_sampler.md R110):
a channel disagrees where `D[i] = r[i]` (R101). -/
def runAfterSample (i : Channel) (k : Nat) (r : Word) (s : State) : Nat := if bit s.d i == bit r i then k + 1 else 0

/-- The same after an operation: INIT starts afresh, and POLL and READ are no SAMPLEs (40_sampler.md R110). -/
def runAfterOp (i : Channel) (k : Nat) (s : State) : Instr → Nat
  | .init _ => 0
  | .sample r => runAfterSample i k r s
  | .poll _ => k
  | .read => k

/-- The same after a clock edge: INIT takes the cycle, else a tick is a SAMPLE, wherever a POLL of that edge falls (20_memory.md
R58). -/
def runAfterEdge (i : Channel) (k : Nat) (io : Ports) (s : State) : Nat :=
  if io.init then 0 else if io.tick then runAfterSample i k io.rawIn s else k

/-- The same after a step of the machine, by the input it takes. -/
def runAfterStep (i : Channel) (k : Nat) (s : State) : Nat :=
  match s.inputs with
  | [] => k
  | .command w :: _ =>
    match decode w with
    | .ok op => runAfterOp i k s op
    | .error _ => k
  | .edge io :: _ => runAfterEdge i k io s
  | .edgeForeignRead io :: _ => runAfterEdge i k io s

/-- How many of the operations are SAMPLEs that change `P[i]` from 0 to 1: the E of 20_memory.md R59. -/
def pressRises (i : Channel) : List Instr → State → Nat
  | [], _ => 0
  | op :: ops, s =>
    match exec op s with
    | .next t => (if !bit s.p i && bit t.p i then 1 else 0) + pressRises i ops t
    | .fault _ => 0
    | .refused _ => 0

/-- An output reports a press of channel `i`: the result of a POLL with bit `i` = 1. -/
def reportsPress (i : Channel) : Result → Bool
  | .poll matched => bit matched i
  | .read _ => false
  | .foreignRead _ => false

/-- How many outputs so far report a press of channel `i`: with the outputs of an interval, the Q of 20_memory.md R59. -/
def pressReports (i : Channel) (s : State) : Nat := s.results.countP (reportsPress i)

/-- An operation is an INIT. -/
def isInit : Instr → Bool
  | .init _ => true
  | .sample _ => false
  | .poll _ => false
  | .read => false

/-- An operation is a POLL. -/
def isPoll : Instr → Bool
  | .poll _ => true
  | .init _ => false
  | .sample _ => false
  | .read => false

/-- The operations one edge performs, in their order (20_memory.md R46, R58): the entries of the serialization it stands for. -/
def edgeOps (order : SameCycleOrder) (io : Ports) (s : State) : List Instr :=
  if io.init then [.init io.rawIn]
  else if acceptsQuery io s then
    if io.tick then
      match order with
      | .sampleFirst => [.sample io.rawIn, .poll io.qMask]
      | .pollFirst => [.poll io.qMask, .sample io.rawIn]
    else [.poll io.qMask]
  else if io.tick then [.sample io.rawIn]
  else []

/-- Two states agree on what the operation level has: the four words, the ghost flag and the outputs (20_memory.md R57). -/
abbrev sameOperationLevel (s t : State) : Prop :=
  s.d = t.d ∧ s.p = t.p ∧ s.ca = t.ca ∧ s.cb = t.cb ∧ s.initialised = t.initialised ∧ s.results = t.results

/-- Two states agree on channel `i`'s bit of each of the four words (10_state.md R25). -/
abbrev sameChannel (i : Channel) (s t : State) : Prop :=
  bit s.d i = bit t.d i ∧ bit s.p i = bit t.p i ∧ bit s.ca i = bit t.ca i ∧ bit s.cb i = bit t.cb i

/-- No request is up, seen or acknowledged: a requester may start one (20_memory.md R54 duty 1). -/
abbrev quietHandshake (s : State) : Prop :=
  s.qAck = false ∧ s.reqPrev = false ∧ s.qReqSync = List.replicate s.qReqSync.length false

/-- A request is up and acknowledged, and the block sees nothing else: the requester may withdraw it (20_memory.md R54 duty 4). -/
abbrev acknowledgedHandshake (s : State) : Prop :=
  s.qAck = true ∧ s.reqPrev = true ∧ s.qReqSync = List.replicate s.qReqSync.length true

/-- The requester holds its request and its mask in every one of these cycles, and no INIT is applied (20_memory.md R54 duties 2
and 3). -/
abbrev holdsRequest (mask : Word) (ios : List Ports) : Prop :=
  ∀ io ∈ ios, io.init = false ∧ io.qReq = true ∧ io.qMask = mask

/-- The requester holds `q_req` = 0 in every one of these cycles, and no INIT is applied (20_memory.md R54 duty 5). -/
abbrev holdsNoRequest (ios : List Ports) : Prop := ∀ io ∈ ios, io.init = false ∧ io.qReq = false

/-- What channel `i` is told by an operation: which row of the opcode map it is, and its own bit of the operand
(10_state.md R25). -/
def channelView (i : Channel) : Instr → BitVec 4 × Bool
  | .init r => (0b0001#4, bit r i)
  | .sample r => (0b0010#4, bit r i)
  | .poll mask => (0b0011#4, bit mask i)
  | .read => (0b0100#4, false)

/-- Channel `i`'s bit of an output. -/
def resultBit (i : Channel) : Result → Bool
  | .poll matched => bit matched i
  | .read level => bit level i
  | .foreignRead seen => bit seen i

/-- At most one request is in flight: the flip-flops of the synchronizer hold `q_req` levels of at most one change of the request,
the newest first, and the last level an edge sampled is the newest of them, or `q_ack` itself with no synchronizer
(20_memory.md R54: a requester changes `q_req` only after it observes `q_ack` follow). -/
abbrev oneRequestInFlight (s : State) : Prop :=
  (∃ a b, s.qReqSync = List.replicate a (!s.qAck) ++ List.replicate b s.qAck) ∧
    s.reqPrev = (s.qReqSync.head?).getD s.qAck

/-- The time of tick `k`, with INIT at time `start` and a tick every `TICK_PERIOD` (00_scope.md R6, R11; 60_exceptions.md R173). The
spec gives only the time between ticks; that tick 1 comes exactly one `TICK_PERIOD` after INIT is the model's. DESIGN CHOICE,
unsafe: log entry 19. -/
def tickTime (start k : Nat) : Nat := start + k * Config.tickPeriod

/-- The raw words that ticks 1 to `n` sample from pin levels that vary over time (60_exceptions.md R173). A change at the very time of
a tick is seen by that tick. DESIGN CHOICE, unsafe: log entry 19. -/
def sampledLevels (pins : Nat → Word) (start n : Nat) : List Word :=
  (List.range n).map fun k => pins (tickTime start (k + 1))

/-- The machine's invariant: the synchronizer chain has `SYNC_STAGES` flip-flops (10_state.md R28), and before the first INIT no
operation has given an output, acknowledged a query or reported one (60_exceptions.md R163). -/
abbrev State.Inv (s : State) : Prop :=
  s.qReqSync.length = Config.syncStages.depth ∧
    (s.initialised = false → s.results = [] ∧ s.qAck = false ∧ s.qMatched = 0x00#8)

end Sys2Proof.Machine
end

