-- ==== Sys2Proof/Certificates/Slice0/Obligations.lean ====
section
/-! DEFINITION. The statements for the provers, each from the spec's numbered rules. A formula of the spec is written out here in
words and bits, not through the model's function for it. -/

open Sys2Proof Sys2Proof.Machine

/-! ## Encoding -/

/-- 95_test_vectors.md DEC1: command words written out from the opcode map decode to the operations they spell, and words
outside it are rejected by name. -/
def Obligations.SpecWordsDecode : Prop :=
  decode 0x10FF#16 = .ok (.init 0xFF#8) ∧ decode 0x1000#16 = .ok (.init 0x00#8) ∧
  decode 0x20FE#16 = .ok (.sample 0xFE#8) ∧ decode 0x3001#16 = .ok (.poll 0x01#8) ∧
  decode 0x30FF#16 = .ok (.poll 0xFF#8) ∧ decode 0x4000#16 = .ok .read ∧
  decode 0x4001#16 = .error .reservedEncoding ∧ decode 0x2100#16 = .error .reservedEncoding ∧
  decode 0x0000#16 = .error .reservedEncoding ∧ decode 0x5000#16 = .error .reservedEncoding ∧
  decode 0xFFFF#16 = .error .reservedEncoding

/-- 30_encoding.md section 3: the word of any operation, with any operand, decodes to that operation. -/
def Obligations.DecodeOfEncodeIsTheOperation : Prop :=
  ∀ i : Instr, i.wellFormed = true → decode (encode i) = .ok i

/-- 30_encoding.md section 3: each word has one meaning, so a word that decodes is the word of what it decodes to. -/
def Obligations.EncodeOfDecodeIsTheWord : Prop :=
  ∀ (w : CommandWord) (i : Instr), decode w = .ok i → encode i = w

/-- 30_encoding.md R82: every 16-bit value decodes as the opcode map's match and mask terms say, and every other value is
reserved. -/
def Obligations.OpcodeMapDecodesEveryWord : Prop :=
  ∀ w : CommandWord, decode w =
    if w &&& 0xFF00#16 = 0x1000#16 then .ok (.init (w.extractLsb' 0 8))
    else if w &&& 0xFF00#16 = 0x2000#16 then .ok (.sample (w.extractLsb' 0 8))
    else if w &&& 0xFF00#16 = 0x3000#16 then .ok (.poll (w.extractLsb' 0 8))
    else if w = 0x4000#16 then .ok .read
    else .error .reservedEncoding

/-- 30_encoding.md R84: a command word outside the four rows is refused, in every state and before it performs anything, and
the refusal stays for the whole run. -/
def Obligations.ReservedWordIsRefusedForTheRun : Prop :=
  ∀ (s : State) (w : CommandWord) (rest : List Input),
    s.inputs = .command w :: rest → commandWellFormed w = false →
    ∀ k, runSteps (k + 1) s = .refused .reservedEncoding

/-- 10_state.md section 8 and 30_encoding.md section 3: a step takes the oldest input of the stream and runs it; a command word
that decodes runs the decoded operation and nothing else. The rest is the model's choice: a clock edge runs under the order that
is open at that edge, the free value at the edge count (log entry 4); a clock edge with a foreign reader is an input of its own
with its own draw (log entry 7); and inputs stand in a stream, at whose end the machine waits (log entry 3). -/
def Obligations.StepRunsTheDecodedOperation : Prop :=
  ∀ (s : State) (rest : List Input),
    (∀ (w : CommandWord) (i : Instr), s.inputs = .command w :: rest → decode w = .ok i → i.wellFormed = true →
      step s = exec i { s with inputs := rest }) ∧
    (∀ io : Ports, s.inputs = .edge io :: rest →
      step s = clockEdge (Config.sameCycleOrder s.cycle) io { s with inputs := rest }) ∧
    (∀ io : Ports, s.inputs = .edgeForeignRead io :: rest →
      step s = foreignReadEdge (Config.sameCycleOrder s.cycle) (Config.foreignPick s.cycle) io { s with inputs := rest }) ∧
    (s.inputs = [] → step s = .next s)

/-! ## INIT -/

/-- 10_state.md R32 (and 42_startup_init.md R150): INIT `r` answers, in every state, the state with the reset values of all
registers, the synchronizer and everything else unchanged. -/
def Obligations.InitLeavesTheResetValues : Prop :=
  ∀ (r : Word) (s : State), exec (.init r) s = .next
    { s with d := ~~~r, p := 0x00#8, ca := 0xFF#8, cb := 0xFF#8, qAck := false, qMatched := 0x00#8, initialised := true }

/-- 42_startup_init.md R152, R153: a cycle with `init` = 1 during a query is a handshake violation; any other that breaks no
handshake performs INIT and nothing else, whatever `tick` is, and the edge samples the request as every edge does. -/
def Obligations.InitCyclePerformsInitAlone : Prop :=
  ∀ (order : SameCycleOrder) (io : Ports) (s : State), io.init = true →
    ((requestSeen io s = true ∨ s.qAck = true) →
      clockEdge order io s = .fault (.handshakeViolation (.cycle s.cycle))) ∧
    (handshakeViolated io s = false →
      clockEdge order io s = .next (sampleRequest io
        { s with d := ~~~io.rawIn, p := 0x00#8, ca := 0xFF#8, cb := 0xFF#8, qAck := false, qMatched := 0x00#8,
                 initialised := true }))

/-- 42_startup_init.md section on INIT (the spec's inference, rule 151): a POLL right after INIT reports nothing for every mask,
and a channel pressed at boot reads as pressed. -/
def Obligations.BootLatchesNoPress : Prop :=
  ∀ (r mask : Word) (s : State), ∃ t, runOps [.init r, .poll mask, .read] s = .next t ∧
    t.results = s.results ++ [.poll 0x00#8, .read (~~~r)] ∧ t.p = 0x00#8

/-- 70_reset_and_hazards.md section 1 (the spec's inference, rule 182): `init` held for several quiet cycles leaves what one INIT
with the last cycle's `raw_in` leaves. -/
def Obligations.InitHeldIsOneInit : Prop :=
  ∀ (ios : List Ports) (last : Ports) (s : State), quietHandshake s →
    (∀ io ∈ ios ++ [last], io.init = true ∧ io.qReq = false) →
    ∃ t, runEdges (ios ++ [last]) s = .next t ∧ t.d = ~~~last.rawIn ∧ t.p = 0x00#8 ∧ t.ca = 0xFF#8 ∧ t.cb = 0xFF#8 ∧
      t.qMatched = 0x00#8 ∧ t.initialised = true ∧ t.results = s.results ∧ quietHandshake t

/-- 70_reset_and_hazards.md section 2: a host that boots in order, `init` in one or more quiet cycles and only then ticks, meets no
fault while it issues no query, and is left initialised with a quiet handshake. -/
def Obligations.BootInOrderNeverFaults : Prop :=
  ∀ (boot : Ports) (boots ios : List Ports) (s : State), quietHandshake s →
    (∀ io ∈ boot :: boots, io.init = true ∧ io.tick = false ∧ io.qReq = false) → holdsNoRequest ios →
    ∃ t, runEdges (boot :: boots ++ ios) s = .next t ∧ t.initialised = true ∧ quietHandshake t ∧ t.results = s.results

/-! ## SAMPLE, the counter pair and the press accumulator -/

/-- 40_sampler.md R101, R105, R106 (with the formulas of steps 2, 3 and 4 between them): SAMPLE `r` after an INIT answers the state
with the four words of the six steps and everything else unchanged. -/
def Obligations.SampleComputesTheSixSteps : Prop :=
  ∀ (r : Word) (s : State), s.initialised = true →
    let changed := s.d ^^^ ~~~r
    let ca := ~~~(s.ca &&& changed)
    let cb := ca ^^^ (s.cb &&& changed)
    let settled := changed &&& ca &&& cb
    let d := s.d ^^^ settled
    exec (.sample r) s = .next { s with d := d, p := s.p ||| (d &&& settled), ca := ca, cb := cb } ∧
    (∀ i, (bit changed i = true ↔ bit s.d i = bit r i)) ∧
    (∀ i, bit d i = if bit settled i then !bit s.d i else bit s.d i)

/-- 40_sampler.md section 2 (the spec's inferences, rules 108 and 109): on every channel the counter goes to 3 where the raw level
agrees and counts down modulo 4 where it disagrees; `D` toggles exactly where a disagreeing channel's counter was 0; and `P`
gains exactly the toggles into pressed. -/
def Obligations.CounterPairCountsDown : Prop :=
  ∀ (i : Channel) (r : Word) (s : State), s.initialised = true →
    ∃ t, exec (.sample r) s = .next t ∧
      (bit s.d i ≠ bit r i → counterValue i t = 3 ∧ bit t.d i = bit s.d i ∧ bit t.p i = bit s.p i) ∧
      (bit s.d i = bit r i → counterValue i t = (counterValue i s + 3) % 4 ∧
        (bit t.d i ≠ bit s.d i ↔ counterValue i s = 0) ∧
        bit t.p i = (bit s.p i || (counterValue i s == 0 && !bit s.d i)))

/-- 40_sampler.md section 2 (the spec's inference, rule 110): after an INIT and any SAMPLEs, the counter is `3 - (k mod 4)` for the
run of `k` disagreeing SAMPLEs that ends with the latest one, and the latest toggled `D[i]` exactly when `k` > 0 and
`k mod 4 = 0`. -/
def Obligations.RunLengthFixesTheCounter : Prop :=
  ∀ (i : Channel) (r0 r : Word) (rs : List Word) (s : State),
    ∃ b u t, exec (.init r0) s = .next b ∧ runOps (samples rs) b = .next u ∧ exec (.sample r) u = .next t ∧
      counterValue i b = 3 ∧
      counterValue i t = 3 - disagreeingRun i 0 (rs ++ [r]) b % 4 ∧
      (bit t.d i ≠ bit u.d i ↔
        0 < disagreeingRun i 0 (rs ++ [r]) b ∧ disagreeingRun i 0 (rs ++ [r]) b % 4 = 0)

/-- 40_sampler.md section 2 (the spec's inference, rule 112): from a settled counter, fewer than 4 disagreeing ticks and then an
agreeing one leave `D[i]` as it was and the counter settled, and press nothing. -/
def Obligations.GlitchIsRejected : Prop :=
  ∀ (i : Channel) (rs : List Word) (r : Word) (s : State), s.initialised = true → counterValue i s = 3 →
    rs.length < 4 → (∀ x ∈ rs, bit x i = bit s.d i) → bit r i ≠ bit s.d i →
    ∃ t, runOps (samples (rs ++ [r])) s = .next t ∧ bit t.d i = bit s.d i ∧ counterValue i t = 3 ∧
      bit t.p i = bit s.p i

/-- 40_sampler.md section 2 (the spec's inference, rule 113): from a settled counter, a raw level that disagrees and is held toggles
`D[i]` on the 4th tick and at no earlier one, and never again; `P[i]` gains the press when the new level is pressed, and
nothing when it is released. -/
def Obligations.ConfirmationTakesExactlyFourTicks : Prop :=
  ∀ (i : Channel) (rs : List Word) (s : State), s.initialised = true → counterValue i s = 3 →
    (∀ x ∈ rs, bit x i = bit s.d i) →
    ∃ t, runOps (samples rs) s = .next t ∧
      (rs.length < 4 → bit t.d i = bit s.d i ∧ bit t.p i = bit s.p i) ∧
      (4 ≤ rs.length → bit t.d i = !bit s.d i ∧ bit t.p i = (bit s.p i || !bit s.d i) ∧ counterValue i t = 3)

/-- 40_sampler.md section 3 (the spec's inference, rule 118): from a counter value `m`, disagreeing ticks toggle `D[i]` on the
(m+1)-th of them and on none before. -/
def Obligations.ToggleComesAfterTheCounterRunsOut : Prop :=
  ∀ (i : Channel) (rs : List Word) (s : State), s.initialised = true → (∀ x ∈ rs, bit x i = bit s.d i) →
    ∃ t, runOps (samples rs) s = .next t ∧
      (rs.length ≤ counterValue i s → bit t.d i = bit s.d i ∧ counterValue i t = counterValue i s - rs.length) ∧
      (rs.length = counterValue i s + 1 → bit t.d i = !bit s.d i ∧ counterValue i t = 3)

/-- 40_sampler.md section 3 (the spec's inference, rule 116): after an INIT, a channel whose raw level never changes keeps its INIT
level, a settled counter and no pending press, whatever the other channels do. -/
def Obligations.StableInputNeverPresses : Prop :=
  ∀ (i : Channel) (r0 : Word) (rs : List Word) (s : State), (∀ x ∈ rs, bit x i = bit r0 i) →
    ∃ t, runOps (.init r0 :: samples rs) s = .next t ∧
      bit t.d i = !bit r0 i ∧ counterValue i t = 3 ∧ bit t.p i = false

/-- 40_sampler.md section 3 (the spec's inferences, rules 114 and 115): over every operation, `P[i]` rises only in a SAMPLE that
toggles `D[i]` from 0 to 1, every such SAMPLE leaves it 1, and it falls only in a POLL whose mask covers it or in an INIT. -/
def Obligations.PendingBitFollowsPressesAndPolls : Prop :=
  ∀ (i : Channel) (op : Instr) (s t : State), exec op s = .next t →
    (bit s.p i = false → bit t.p i = true → (∃ r, op = .sample r) ∧ bit s.d i = false ∧ bit t.d i = true) ∧
    (∀ r, op = .sample r → bit s.d i = false → bit t.d i = true → bit t.p i = true) ∧
    (bit s.p i = true → bit t.p i = false → (∃ r, op = .init r) ∨ ∃ mask, op = .poll mask ∧ bit mask i = true)

/-- 90_conflicts.md C2: a press that no POLL has covered stays pending after the release, so from power-up a run reaches
`P[0]` = 1 with `D[0]` = 0, and the POLL then reports it once (95_test_vectors.md S9). -/
def Obligations.ReleasedPressIsStillReportedOnce : Prop :=
  ∃ s t, runOps (.init 0xFF#8 :: samples (List.replicate 4 0xFE#8 ++ List.replicate 4 0xFF#8)) State.reset = .next s ∧
    bit s.p 0 = true ∧ bit s.d 0 = false ∧
    runOps [.read, .poll 0x01#8, .poll 0x01#8] s = .next t ∧
    t.results = [.read 0x00#8, .poll 0x01#8, .poll 0x00#8]

/-- 10_state.md section 1 (the spec's inference, rule 25) and 40_sampler.md section 4: no operation lets one channel see another:
two states and operands that agree on channel `i` end agreeing on channel `i`, in every word and in the output. -/
def Obligations.ChannelsAreIndependent : Prop :=
  ∀ (i : Channel) (op op' : Instr) (s s' t t' : State), channelView i op = channelView i op' → sameChannel i s s' →
    exec op s = .next t → exec op' s' = .next t' →
    sameChannel i t t' ∧
    ∃ out out', t.results = s.results ++ out ∧ t'.results = s'.results ++ out' ∧
      out.map (resultBit i) = out'.map (resultBit i)

/-! ## POLL and READ -/

/-- 41_query_ack.md R131, R135, R136: POLL `mask` after an INIT, for every mask, returns `mask & P` and writes only `P`, of which it
clears what it returned. -/
def Obligations.PollReturnsAndClearsItsPresses : Prop :=
  ∀ (mask : Word) (s : State), s.initialised = true →
    exec (.poll mask) s = .next
      { s with p := s.p ^^^ (mask &&& s.p), results := s.results ++ [.poll (mask &&& s.p)] } ∧
    ∀ i, (bit (mask &&& s.p) i = true ↔ bit mask i = true ∧ bit s.p i = true)

/-- 41_query_ack.md R133: POLL never clears or reports a bit outside its mask. -/
def Obligations.PollLeavesBitsOutsideItsMask : Prop :=
  ∀ (mask : Word) (s : State), s.initialised = true →
    ∃ t matched, exec (.poll mask) s = .next t ∧ t.results = s.results ++ [.poll matched] ∧
      ∀ i, bit mask i = false → bit matched i = false ∧ bit t.p i = bit s.p i

/-- 41_query_ack.md R134: after a POLL the bits of its mask are clear; only a SAMPLE that toggles the channel from 0 to 1 sets such a
bit again; and a second full POLL right after a full one returns 0. -/
def Obligations.PollReportsEachPressOnce : Prop :=
  ∀ (mask : Word) (s : State), s.initialised = true →
    ∃ t, exec (.poll mask) s = .next t ∧
      (∀ i, bit mask i = true → bit t.p i = false) ∧
      (∀ (i : Channel) (ops : List Instr) (op : Instr) (u v : State), bit mask i = true →
        runOps ops t = .next u → bit u.p i = false → exec op u = .next v → bit v.p i = true →
        (∃ r, op = .sample r) ∧ bit u.d i = false ∧ bit v.d i = true) ∧
      (∃ v, runOps [.poll 0xFF#8, .poll 0xFF#8] s = .next v ∧ v.results = s.results ++ [.poll s.p, .poll 0x00#8])

/-- 41_query_ack.md section 2: READ after an INIT returns `D` and writes no register, so two READs return the same value. -/
def Obligations.ReadReturnsTheDebouncedState : Prop :=
  ∀ s : State, s.initialised = true →
    exec .read s = .next { s with results := s.results ++ [.read s.d] } ∧
    runOps [.read, .read] s = .next { s with results := s.results ++ [.read s.d, .read s.d] }

/-- 41_query_ack.md section 2 (rules 141 and 142 of it, with 138): what a READ and a POLL tell comes each from its own word: no
operation but POLL gives an output that depends on `P`, what a POLL gives and leaves in `P` depends on neither the levels nor the
counters, and no result of any operation depends on the counters, nor does anything a READ gives or drives. -/
def Obligations.OutputsDependOnTheirOwnWordOnly : Prop :=
  (∀ (op : Instr) (s t : State) (x : Word), isPoll op = false → exec op s = .next t →
    ∃ t', exec op { s with p := x } = .next t' ∧ outputs t' = outputs t ∧ t'.results = t.results) ∧
  (∀ (mask : Word) (s t : State) (d ca cb : Word), exec (.poll mask) s = .next t →
    ∃ t', exec (.poll mask) { s with d := d, ca := ca, cb := cb } = .next t' ∧ t'.results = t.results ∧ t'.p = t.p) ∧
  (∀ (op : Instr) (s t : State) (ca cb : Word), exec op s = .next t →
    ∃ t', exec op { s with ca := ca, cb := cb } = .next t' ∧ t'.results = t.results ∧
      (op = .read → outputs t' = outputs t))

/-- 20_memory.md section 3 (rule 47 of it): only each operation is atomic: a SAMPLE may fall between a READ and a POLL. There is a
state with nothing pending from which a READ and a POLL with nothing between them show the channel released and no press, while
with one SAMPLE between them the same READ shows it released and the POLL reports its press. -/
def Obligations.SampleMayFallBetweenReadAndPoll : Prop :=
  ∃ (r : Word) (s t u : State), s.initialised = true ∧ s.p = 0x00#8 ∧
    runOps [.read, .poll 0x01#8] s = .next u ∧ u.results = s.results ++ [.read 0x00#8, .poll 0x00#8] ∧
    runOps [.read, .sample r, .poll 0x01#8] s = .next t ∧ t.results = s.results ++ [.read 0x00#8, .poll 0x01#8]

/-! ## Frames, faults and the whole machine -/

/-- 10_state.md section 6, the access rights: what each operation leaves unchanged when it gives a next state. -/
def Obligations.OperationsKeepWhatTheyMayNotWrite : Prop :=
  ∀ (op : Instr) (s t : State), exec op s = .next t →
    t.qReqSync = s.qReqSync ∧ t.reqPrev = s.reqPrev ∧ t.reqMask = s.reqMask ∧ t.cycle = s.cycle ∧ t.inputs = s.inputs ∧
    (isInit op = false → t.qAck = s.qAck ∧ t.qMatched = s.qMatched ∧ t.initialised = s.initialised) ∧
    (issuer op = .consumer → t.d = s.d ∧ t.ca = s.ca ∧ t.cb = s.cb) ∧
    (issuer op ≠ .consumer → t.results = s.results) ∧
    (op = .read → t.p = s.p)

/-- 10_state.md section 1 and 30_encoding.md section 1: over a whole step, `D`, `CA` or `CB` changes only where an INIT or a SAMPLE
is performed: a command word of one of them, or an edge with `init` or `tick`. -/
def Obligations.OnlyInitAndSampleMoveTheLevels : Prop :=
  ∀ s t : State, step s = .next t → (t.d ≠ s.d ∨ t.ca ≠ s.ca ∨ t.cb ≠ s.cb) →
    (∃ w r rest, s.inputs = .command w :: rest ∧ (decode w = .ok (.init r) ∨ decode w = .ok (.sample r))) ∨
    (∃ io rest, (s.inputs = .edge io :: rest ∨ s.inputs = .edgeForeignRead io :: rest) ∧
      (io.init = true ∨ io.tick = true))

/-- 60_exceptions.md R163: an operation faults exactly where it is SAMPLE, POLL or READ and no INIT has been performed, and the fault
is UNINITIALISED at that operation; an edge that breaks no handshake and would perform a SAMPLE or a POLL then is UNINITIALISED
at its cycle. -/
def Obligations.OperationFaultsExactlyBeforeInit : Prop :=
  (∀ (op : Instr) (s : State) (f : Fault),
    exec op s = .fault f ↔
      isInit op = false ∧ s.initialised = false ∧ f = .uninitialised (.operation op)) ∧
  (∀ (order : SameCycleOrder) (io : Ports) (s : State), handshakeViolated io s = false → io.init = false →
    s.initialised = false → (io.tick = true ∨ (requestSeen io s = true ∧ s.qAck = false)) →
    clockEdge order io s = .fault (.uninitialised (.cycle s.cycle)))

/-- 60_exceptions.md section 1: the operations are total: each gives a next state after an INIT, INIT in every state, and none is
refused. -/
def Obligations.OperationsAreTotalAfterInit : Prop :=
  ∀ (op : Instr) (s : State), (s.initialised = true ∨ isInit op = true) →
    ∃ t, exec op s = .next t ∧ t.initialised = true

/-- 60_exceptions.md section 2 (rule 162 of it): a fault records its code and where it arose, and nothing that stands behind the
input that faulted clears it, an INIT among it: for every rest of the stream and every number of further steps the machine answers
that fault, for a SAMPLE, POLL or READ word before the first INIT, an edge that would perform a SAMPLE or a POLL then, and an edge
that breaks the handshake. What breaks it, that it is checked first, and the edge count as the cycle are the model's (log entries
8, 13 and 11). -/
def Obligations.FaultIsNeverCleared : Prop :=
  (∀ (s : State) (op : Instr) (rest : List Input) (k : Nat), s.initialised = false → isInit op = false →
    s.inputs = .command (encode op) :: rest → runSteps (k + 1) s = .fault (.uninitialised (.operation op))) ∧
  (∀ (s : State) (io : Ports) (rest : List Input) (k : Nat), handshakeViolated io s = false → io.init = false →
    s.initialised = false → (io.tick = true ∨ (requestSeen io s = true ∧ s.qAck = false)) →
    s.inputs = .edge io :: rest → runSteps (k + 1) s = .fault (.uninitialised (.cycle s.cycle))) ∧
  (∀ (s : State) (io : Ports) (rest : List Input) (k : Nat), handshakeViolated io s = true →
    s.inputs = .edge io :: rest → runSteps (k + 1) s = .fault (.handshakeViolation (.cycle s.cycle))) ∧
  (∀ site, faultCode (.uninitialised site) = 1 ∧ faultCode (.handshakeViolation site) = 2 ∧ faultCode (.reentry site) = 3)

/-- 60_exceptions.md section 2: REENTRY cannot arise where SAMPLE is one transition. -/
def Obligations.ReentryNeverArises : Prop := ∀ (s : State) (site : FaultSite), step s ≠ .fault (.reentry site)

/-- 10_state.md section 3 and 70_reset_and_hazards.md section 2: once an INIT has been performed no step forgets it, and no step
faults UNINITIALISED again. -/
def Obligations.InitialisedMachineStaysInitialised : Prop :=
  ∀ s : State, s.initialised = true →
    (∀ t, step s = .next t → t.initialised = true) ∧ ∀ site, step s ≠ .fault (.uninitialised site)

/-- 10_state.md section 7 and section 3: at power-up no INIT has been performed; an INIT runs, and the other operations fault. That
nothing has been issued or given out there and that the machine then waits is the model's choice (log entries 1, 3 and 12). -/
def Obligations.PowerUpAwaitsInit : Prop :=
  State.reset.initialised = false ∧ State.reset.inputs = [] ∧ State.reset.results = [] ∧
  step State.reset = .next State.reset ∧
  ∀ i : Instr,
    (∀ r, i = .init r → ∃ t, step (State.reset.withFetchWord 16 (encode i).toNat) = .next t ∧ t.initialised = true ∧
      t.d = ~~~r) ∧
    (isInit i = false →
      step (State.reset.withFetchWord 16 (encode i).toNat) = .fault (.uninitialised (.operation i)))

/-! ## The clock edge and the query handshake -/

/-- 20_memory.md section 5 and 60_exceptions.md section 4: an edge breaks the handshake in exactly four cases, a mask changed before
the acknowledge, a request withdrawn before acceptance, `init` during a query, and a new request raised before `q_ack` = 0; it is
then HANDSHAKE_VIOLATION, initialised or not; any other edge is UNINITIALISED exactly where a SAMPLE or a POLL would be performed
before the first INIT; and every other edge gives a next state. The fourth case, the record of the request that the first two
compare with, and that all are checked first at every edge are the model's reading of rules 56, 164, 169 and 190 (log entries 8
and 13, DEDUCED, and 2). -/
def Obligations.EdgeFaultsInTheSpecsOrder : Prop :=
  ∀ (order : SameCycleOrder) (io : Ports) (s : State),
    (handshakeViolated io s = true ↔
      (io.qReq = true ∧ s.reqPrev = true ∧ s.qAck = false ∧ io.qMask ≠ s.reqMask) ∨
      (io.qReq = false ∧ s.reqPrev = true ∧ s.qAck = false) ∨
      (io.init = true ∧ (requestSeen io s = true ∨ s.qAck = true)) ∨
      (io.qReq = true ∧ s.reqPrev = false ∧ s.qAck = true)) ∧
    (handshakeViolated io s = true → clockEdge order io s = .fault (.handshakeViolation (.cycle s.cycle))) ∧
    (handshakeViolated io s = false →
      (clockEdge order io s = .fault (.uninitialised (.cycle s.cycle)) ↔
        io.init = false ∧ s.initialised = false ∧ (io.tick = true ∨ (requestSeen io s = true ∧ s.qAck = false)))) ∧
    (handshakeViolated io s = false →
      (io.init = true ∨ s.initialised = true ∨ (io.tick = false ∧ ¬(requestSeen io s = true ∧ s.qAck = false))) →
      ∃ t, clockEdge order io s = .next t ∧ t.cycle = s.cycle + 1)

/-- 60_exceptions.md section 2 (rule 164 of it): the three violations fault, before the first INIT and in an `init` cycle too:
`q_mask` changed before the acknowledge (against its value in the cycle `q_req` rose, which every edge remembers), `q_req`
withdrawn before acceptance, `init` during a query. That every edge remembers these values is the model's choice (log entry 2),
and that all three are checked first at every edge is its reading (log entry 13, DEDUCED). -/
def Obligations.BrokenHandshakeFaults : Prop :=
  ∀ (order : SameCycleOrder) (io : Ports) (s : State),
    (io.qReq = true → s.reqPrev = true → s.qAck = false → io.qMask ≠ s.reqMask →
      clockEdge order io s = .fault (.handshakeViolation (.cycle s.cycle))) ∧
    (io.qReq = false → s.reqPrev = true → s.qAck = false →
      clockEdge order io s = .fault (.handshakeViolation (.cycle s.cycle))) ∧
    (io.init = true → (requestSeen io s = true ∨ s.qAck = true) →
      clockEdge order io s = .fault (.handshakeViolation (.cycle s.cycle))) ∧
    (∀ t, clockEdge order io s = .next t → t.reqPrev = io.qReq ∧
      (io.qReq = true → s.reqPrev = false → t.reqMask = io.qMask) ∧
      (io.qReq = true → s.reqPrev = true → t.reqMask = s.reqMask))

/-- 70_reset_and_hazards.md section 3 (rule 190, as the model reads it beside 60_exceptions.md rule 164: log entry 8, DEDUCED): a new
request raised before `q_ack` = 0 is a handshake violation. -/
def Obligations.RequestBeforeReleaseFaults : Prop :=
  ∀ (order : SameCycleOrder) (io : Ports) (s : State), io.qReq = true → s.reqPrev = false → s.qAck = true →
    clockEdge order io s = .fault (.handshakeViolation (.cycle s.cycle))

/-- 20_memory.md R51: an edge with `init` = 0, `q_req_s` = 1 and `q_ack` = 0 performs exactly one POLL with operand `q_mask`, whose
result it writes to `q_matched` as it raises `q_ack`; with no tick that POLL is all it performs, and with one the POLL reads the
`P` from before or from after the SAMPLE. -/
def Obligations.AcceptedRequestPerformsOnePoll : Prop :=
  ∀ (order : SameCycleOrder) (io : Ports) (s : State), s.initialised = true → handshakeViolated io s = false →
    io.init = false → requestSeen io s = true → s.qAck = false →
    ∃ t, clockEdge order io s = .next t ∧ t.qAck = true ∧ t.results = s.results ++ [.poll t.qMatched] ∧
      (∀ i, bit t.qMatched i = true → bit io.qMask i = true) ∧
      (io.tick = false → t.qMatched = io.qMask &&& s.p ∧ t.p = s.p ^^^ (io.qMask &&& s.p) ∧
        t.d = s.d ∧ t.ca = s.ca ∧ t.cb = s.cb) ∧
      (io.tick = true → ∃ u, exec (.sample io.rawIn) s = .next u ∧
        (t.qMatched = io.qMask &&& s.p ∨ t.qMatched = io.qMask &&& u.p))

/-- 20_memory.md R52, R53: an edge that accepts nothing performs no POLL and leaves `q_matched`; `q_ack` falls where `q_req_s` = 0 and
`q_ack` = 1, and keeps its value where they are equal. -/
def Obligations.ReleaseAndHoldPerformNoPoll : Prop :=
  ∀ (order : SameCycleOrder) (io : Ports) (s : State), s.initialised = true → handshakeViolated io s = false →
    io.init = false → (requestSeen io s = true → s.qAck = true) →
    ∃ t, clockEdge order io s = .next t ∧ t.qMatched = s.qMatched ∧ t.results = s.results ∧
      (requestSeen io s = false → s.qAck = true → t.qAck = false) ∧
      (requestSeen io s = s.qAck → t.qAck = s.qAck) ∧
      (∀ i, bit s.p i = true → bit t.p i = true) ∧
      (io.tick = false → t.d = s.d ∧ t.p = s.p ∧ t.ca = s.ca ∧ t.cb = s.cb)

/-- 20_memory.md R46: where an edge performs both a SAMPLE and a POLL, `SAMPLE_FIRST` gives the POLL the `P` the SAMPLE wrote, and
`POLL_FIRST` the `P` from before it, in the formulas the rule writes out. -/
def Obligations.SameCycleOrderIsASerialization : Prop :=
  ∀ (io : Ports) (s : State), s.initialised = true → handshakeViolated io s = false → io.init = false →
    requestSeen io s = true → s.qAck = false → io.tick = true →
    let changed := s.d ^^^ ~~~io.rawIn
    let ca := ~~~(s.ca &&& changed)
    let settled := changed &&& ca &&& (ca ^^^ (s.cb &&& changed))
    let d := s.d ^^^ settled
    (∃ t, clockEdge .sampleFirst io s = .next t ∧ t.d = d ∧ t.qMatched = io.qMask &&& (s.p ||| (d &&& settled)) ∧
      t.p = (s.p ||| (d &&& settled)) &&& ~~~(io.qMask &&& (s.p ||| (d &&& settled)))) ∧
    (∃ t, clockEdge .pollFirst io s = .next t ∧ t.d = d ∧ t.qMatched = io.qMask &&& s.p ∧
      t.p = (s.p &&& ~~~(io.qMask &&& s.p)) ||| (d &&& settled))

/-- 20_memory.md R49: a tick in a cycle that also performs a POLL still performs its SAMPLE in that cycle; an edge drops a tick only
where it performs INIT. -/
def Obligations.PollNeverDropsATick : Prop :=
  ∀ (order : SameCycleOrder) (io : Ports) (s t : State), clockEdge order io s = .next t → io.tick = true →
    (io.init = false → ∃ u, exec (.sample io.rawIn) s = .next u ∧ t.d = u.d ∧ t.ca = u.ca ∧ t.cb = u.cb) ∧
    (io.init = true → ∃ u, exec (.init io.rawIn) s = .next u ∧ t.d = u.d ∧ t.ca = u.ca ∧ t.cb = u.cb)

/-- 20_memory.md sections 3 and 4 (the spec's inference, rule 57): the port level gives the same serialization as the operation level:
what an edge does to the words, the outputs and the ghost flag is what its operations do one after the other. -/
def Obligations.ClockEdgeRefinesTheSerialization : Prop :=
  ∀ (order : SameCycleOrder) (io : Ports) (s t : State), clockEdge order io s = .next t →
    ∃ u, runOps (edgeOps order io s) s = .next u ∧ sameOperationLevel u t

/-- 20_memory.md section 4 (the spec's inference, rule 55) and 70_reset_and_hazards.md section 4: a requester that starts quiet and
holds its request and mask gets no POLL for `SYNC_STAGES` edges, exactly one at the next, with the mask it drove, whose result
is on `q_matched` from then on, and no second one however long it holds; SAMPLEs may fall on any of these edges. -/
def Obligations.HandshakePerformsExactlyOnePoll : Prop :=
  ∀ (mask : Word) (ios : List Ports) (s : State), s.initialised = true → quietHandshake s → holdsRequest mask ios →
    ∃ t, runEdges ios s = .next t ∧
      (ios.length ≤ s.qReqSync.length →
        t.qAck = false ∧ t.qMatched = s.qMatched ∧ t.results = s.results) ∧
      (∀ io rest, ios.drop s.qReqSync.length = io :: rest →
        t.qAck = true ∧ t.results = s.results ++ [.poll t.qMatched] ∧
        ∃ u v, runEdges (ios.take s.qReqSync.length) s = .next u ∧ exec (.sample io.rawIn) u = .next v ∧
          (t.qMatched = mask &&& u.p ∨ (io.tick = true ∧ t.qMatched = mask &&& v.p)))

/-- 20_memory.md section 4 and 70_reset_and_hazards.md section 4: after the requester lowers an acknowledged request, `q_ack` stays 1
for `SYNC_STAGES` edges and falls at the next, no POLL is performed, `q_matched` is kept, and the handshake is then quiet. -/
def Obligations.WithdrawnRequestLowersTheAcknowledge : Prop :=
  ∀ (ios : List Ports) (s : State), s.initialised = true → acknowledgedHandshake s → holdsNoRequest ios →
    ∃ t, runEdges ios s = .next t ∧ t.results = s.results ∧ t.qMatched = s.qMatched ∧
      (ios.length ≤ s.qReqSync.length → t.qAck = true) ∧
      (s.qReqSync.length < ios.length → quietHandshake t)

/-- 20_memory.md section 4: every edge that breaks no handshake keeps at most one request in flight. That no edge starts a second
one rests on the fault of a request raised too early (log entry 8, DEDUCED) and on the record of the request (log entry 2). -/
def Obligations.EdgeKeepsOneRequestInFlight : Prop :=
  ∀ (order : SameCycleOrder) (io : Ports) (s t : State), oneRequestInFlight s → clockEdge order io s = .next t →
    oneRequestInFlight t

/-- 30_encoding.md section 1: a `tick` held at 1 for `k` cycles performs `k` SAMPLEs, each with its cycle's `raw_in`. -/
def Obligations.HeldTickSamplesEveryCycle : Prop :=
  ∀ (ios : List Ports) (s : State), s.initialised = true → quietHandshake s →
    (∀ io ∈ ios, io.init = false ∧ io.tick = true ∧ io.qReq = false) →
    ∃ t u, runEdges ios s = .next t ∧ runOps (samples (ios.map Ports.rawIn)) s = .next u ∧ sameOperationLevel t u

/-- 70_reset_and_hazards.md section 3: a reader of `state_out` in another clock domain sees each bit from the value before or the value
after the edge, and every such combination is possible; the edge itself does what it does without that reader. That the read is an
input of its own, and that what it saw stands after the edge's own outputs, are the model's choices (log entries 7 and 20). -/
def Obligations.ForeignReadSeesOldOrNewBits : Prop :=
  ∀ (order : SameCycleOrder) (io : Ports) (s t : State), s.initialised = true → clockEdge order io s = .next t →
    (∀ pick, ∃ w, foreignReadEdge order pick io s = .next { t with results := t.results ++ [.foreignRead w] } ∧
      ∀ i, bit w i = bit s.d i ∨ bit w i = bit t.d i) ∧
    (∀ w, (∀ i, bit w i = bit s.d i ∨ bit w i = bit t.d i) →
      ∃ pick, foreignReadEdge order pick io s = .next { t with results := t.results ++ [.foreignRead w] })

/-! ## Delivery, time, invariants -/

/-- 20_memory.md section 6 (the spec's inference, rule 59): over any operations without an INIT, the reports of channel `i` are the
rises of `P[i]`, less the press still pending at the end, plus one that was pending at the start. -/
def Obligations.PressEventsAreConserved : Prop :=
  ∀ (i : Channel) (ops : List Instr) (s t : State), (∀ op ∈ ops, isInit op = false) → runOps ops s = .next t →
    pressReports i t + (bit t.p i).toNat = pressReports i s + (bit s.p i).toNat + pressRises i ops s

/-- 60_exceptions.md section 7 (the spec's inference, rule 173): with a tick every `TICK_PERIOD`, a raw level that changes between
ticks `m` and `m + 1` after INIT and then holds toggles `D[i]` at tick `m + 4`, at least 3 and less than 4 periods after the
change. `TICK_PERIOD` is open: the statement holds for every value of it. That tick 1 comes one period after INIT, on which the
bound for a change before tick 1 rests, and that a tick sees a change at its very time are the model's choices (log entry 19). -/
def Obligations.ToggleDelayIsThreeToFourPeriods : Prop :=
  ∀ (i : Channel) (pins : Nat → Word) (start change m n : Nat) (s : State),
    tickTime start m < change → change ≤ tickTime start (m + 1) →
    (∀ time, time < change → bit (pins time) i = bit (pins start) i) →
    (∀ time, change ≤ time → bit (pins time) i = !bit (pins start) i) →
    (change + 3 * Config.tickPeriod ≤ tickTime start (m + 4) ∧
      tickTime start (m + 4) < change + 4 * Config.tickPeriod) ∧
    ∃ t, runOps (.init (pins start) :: samples (sampledLevels pins start n)) s = .next t ∧
      bit t.d i = if n < m + 4 then !bit (pins start) i else bit (pins start) i

/-- 30_encoding.md R87: the pseudo-instructions' expansions. -/
def Obligations.PseudoInstructionsExpand : Prop :=
  assembleLine .pollAll = assembleLine (.poll 0xFF) ∧
  (∀ v k, v ≤ 255 → 1 ≤ k → ∃ w, assembleLine (.sample v) = some [w] ∧
    assembleLine (.hold v k) = some (List.replicate k w)) ∧
  (∀ c : Channel, ∃ mask, assembleLine (.pressCh c.val) = some [encode (.poll mask)] ∧ ∀ i, (bit mask i = true ↔ i = c))

/-- 30_encoding.md section 4: the lines INIT, SAMPLE and POLL with an 8-bit literal and the line READ assemble to one word each,
which decodes to that operation with that literal; a stream assembles exactly where every line does, to the lines' words in order;
every word of it decodes, to the operations its lines stand for; and a literal over 255 is refused. That a text is refused as a
whole if one line is, on which the third clause and the last rest, is the model's choice (log entry 14). -/
def Obligations.AssembledStreamDecodes : Prop :=
  (∀ v, v ≤ 255 →
    (∃ w, assembleLine (.init v) = some [w] ∧ decode w = .ok (.init (BitVec.ofNat 8 v))) ∧
    (∃ w, assembleLine (.sample v) = some [w] ∧ decode w = .ok (.sample (BitVec.ofNat 8 v))) ∧
    (∃ w, assembleLine (.poll v) = some [w] ∧ decode w = .ok (.poll (BitVec.ofNat 8 v)))) ∧
  (∃ w, assembleLine .read = some [w] ∧ decode w = .ok .read) ∧
  (∀ (ls : List AsmLine) (ws : List CommandWord), assemble ls = some ws ↔
    ∃ parts : List (List CommandWord), ls.map assembleLine = parts.map some ∧ ws = parts.flatten) ∧
  (∀ (ls : List AsmLine) (ws : List CommandWord), assemble ls = some ws →
    ws.map decode = (ls.flatMap expandLine).map .ok) ∧
  (∀ (ls : List AsmLine) (l : AsmLine) (v : Nat), l ∈ ls → 255 < v →
    (l = .init v ∨ l = .sample v ∨ l = .poll v ∨ ∃ k, l = .hold v k) → assemble ls = none)

/-- 10_state.md sections 2, 3 and 7: every step keeps the machine's invariant: the synchronizer keeps its `SYNC_STAGES` flip-flops,
and nothing is given out, acknowledged or reported before the first INIT. -/
def Obligations.StepKeepsTheMachineSound : Prop := ∀ s t : State, s.Inv → step s = .next t → t.Inv

/-- 10_state.md sections 2 and 7: the state at power-up meets the machine's invariant, has a quiet handshake (the model's choice, log
entry 1) and at most one request in flight. -/
def Obligations.PowerUpIsSound : Prop := State.reset.Inv ∧ quietHandshake State.reset ∧ oneRequestInFlight State.reset

/-- 40_sampler.md section 2 (the spec's inference, rule 110, as an invariant): if a channel's counter is 3 less the length modulo 4
of its run of consecutive disagreeing SAMPLEs, every step keeps it so, whatever operations and edges it performs: an INIT and an
agreeing SAMPLE end the run, a disagreeing one grows it, POLL and READ and an edge with neither leave it; and a step that grows
the run toggles `D[i]` exactly where the new length is a multiple of 4. -/
def Obligations.StepKeepsTheCounterOfTheRun : Prop :=
  ∀ (i : Channel) (k : Nat) (s t : State), counterValue i s = 3 - k % 4 → step s = .next t →
    counterValue i t = 3 - runAfterStep i k s % 4 ∧
    (runAfterStep i k s = k + 1 → (bit t.d i ≠ bit s.d i ↔ (k + 1) % 4 = 0))

/-- 60_exceptions.md section 2 (rule 164 of it): the three violations, told by the ports of two successive cycles alone, in an initialised machine with at
most one request in flight: after a cycle with `q_req` = 1 that leaves `q_ack` = 0, a cycle with another `q_mask` or with `q_req`
withdrawn is HANDSHAKE_VIOLATION, and so is any cycle with `init` = 1 while `q_req_s` = 1 or `q_ack` = 1. That the first two are
checked in a cycle with `init` = 1 too is the model's reading (log entry 13, DEDUCED). -/
def Obligations.ViolationsShowOnThePorts : Prop :=
  ∀ (order order' : SameCycleOrder) (before now : Ports) (s t : State), oneRequestInFlight s → t.initialised = true →
    clockEdge order before s = .next t →
    (before.qReq = true → t.qAck = false → now.qReq = true → now.qMask ≠ before.qMask →
      clockEdge order' now t = .fault (.handshakeViolation (.cycle t.cycle))) ∧
    (before.qReq = true → t.qAck = false → now.qReq = false →
      clockEdge order' now t = .fault (.handshakeViolation (.cycle t.cycle))) ∧
    (now.init = true → (requestSeen now t = true ∨ t.qAck = true) →
      clockEdge order' now t = .fault (.handshakeViolation (.cycle t.cycle)))
end

