-- ==== Sys2Proof/Laws/Decode.lean ====
section
/-! SUPPORT. The fields of a packed command word, and a word with `z` = 0000 is packed from its fields (30_encoding.md R80). -/

namespace Sys2Proof

@[simp] theorem zField_packCommand (op : BitVec 4) (v : Word) : zField (packCommand op v) = 0#4 := by
  apply BitVec.eq_of_getLsbD_eq
  intro i hi
  have h : 8 + i < 12 := by omega
  simp [zField, packCommand, hi, h]

@[simp] theorem opField_packCommand (op : BitVec 4) (v : Word) : opField (packCommand op v) = op := by
  apply BitVec.eq_of_getLsbD_eq
  intro i hi
  have h : 12 + i < 16 := by omega
  simp [opField, packCommand, hi, h, BitVec.getLsbD_of_ge v (12 + i) (by omega)]

@[simp] theorem vField_packCommand (op : BitVec 4) (v : Word) : vField (packCommand op v) = v := by
  apply BitVec.eq_of_getLsbD_eq
  intro i hi
  have h : i < 12 := by omega
  have h' : i < 16 := by omega
  simp [vField, packCommand, hi, h, h']

/-- A word whose reserved field is 0 is packed from its selector and its operand. -/
theorem packCommand_fields {w : CommandWord} (h : zField w = 0#4) : packCommand (opField w) (vField w) = w := by
  apply BitVec.eq_of_getLsbD_eq
  intro i hi
  by_cases h8 : i < 8
  · have h12 : i < 12 := by omega
    simp [packCommand, vField, h8, h12, hi]
  · by_cases h12 : i < 12
    · have hz := congrArg (fun z => z.getLsbD (i - 8)) h
      have h4 : i - 8 < 4 := by omega
      have hs : 8 + (i - 8) = i := by omega
      simp only [zField, BitVec.getLsbD_extractLsb', h4, hs, BitVec.getLsbD_zero, decide_true, Bool.true_and] at hz
      simp [packCommand, vField, h8, h12, hz]
    · have h4 : i - 12 < 4 := by omega
      have hs : 12 + (i - 12) = i := by omega
      simp [packCommand, opField, vField, h8, h12, hi, h4, hs]

end Sys2Proof
end

