-- ==== Sys2Proof/Laws/State.lean ====
section
/-! SUPPORT. One lemma per field per state update of Machine/Ops.lean, Flags.lean, Handshake.lean and Stream.lean. -/

namespace Sys2Proof.Machine

variable (s : State)

/-! record: an output is recorded. -/

@[simp] theorem record_d (r : Result) : (record r s).d = s.d := rfl
@[simp] theorem record_p (r : Result) : (record r s).p = s.p := rfl
@[simp] theorem record_ca (r : Result) : (record r s).ca = s.ca := rfl
@[simp] theorem record_cb (r : Result) : (record r s).cb = s.cb := rfl
@[simp] theorem record_qAck (r : Result) : (record r s).qAck = s.qAck := rfl
@[simp] theorem record_qMatched (r : Result) : (record r s).qMatched = s.qMatched := rfl
@[simp] theorem record_qReqSync (r : Result) : (record r s).qReqSync = s.qReqSync := rfl
@[simp] theorem record_initialised (r : Result) : (record r s).initialised = s.initialised := rfl
@[simp] theorem record_reqPrev (r : Result) : (record r s).reqPrev = s.reqPrev := rfl
@[simp] theorem record_reqMask (r : Result) : (record r s).reqMask = s.reqMask := rfl
@[simp] theorem record_cycle (r : Result) : (record r s).cycle = s.cycle := rfl
@[simp] theorem record_inputs (r : Result) : (record r s).inputs = s.inputs := rfl
@[simp] theorem record_results (r : Result) : (record r s).results = s.results ++ [r] := rfl

/-! writePending: P is written. -/

@[simp] theorem writePending_d (x : Word) : (writePending x s).d = s.d := rfl
@[simp] theorem writePending_p (x : Word) : (writePending x s).p = x := rfl
@[simp] theorem writePending_ca (x : Word) : (writePending x s).ca = s.ca := rfl
@[simp] theorem writePending_cb (x : Word) : (writePending x s).cb = s.cb := rfl
@[simp] theorem writePending_qAck (x : Word) : (writePending x s).qAck = s.qAck := rfl
@[simp] theorem writePending_qMatched (x : Word) : (writePending x s).qMatched = s.qMatched := rfl
@[simp] theorem writePending_qReqSync (x : Word) : (writePending x s).qReqSync = s.qReqSync := rfl
@[simp] theorem writePending_initialised (x : Word) : (writePending x s).initialised = s.initialised := rfl
@[simp] theorem writePending_reqPrev (x : Word) : (writePending x s).reqPrev = s.reqPrev := rfl
@[simp] theorem writePending_reqMask (x : Word) : (writePending x s).reqMask = s.reqMask := rfl
@[simp] theorem writePending_cycle (x : Word) : (writePending x s).cycle = s.cycle := rfl
@[simp] theorem writePending_inputs (x : Word) : (writePending x s).inputs = s.inputs := rfl
@[simp] theorem writePending_results (x : Word) : (writePending x s).results = s.results := rfl

/-! writeWords: the four words are written. -/

@[simp] theorem writeWords_d (xd xp xa xb : Word) : (writeWords xd xp xa xb s).d = xd := rfl
@[simp] theorem writeWords_p (xd xp xa xb : Word) : (writeWords xd xp xa xb s).p = xp := rfl
@[simp] theorem writeWords_ca (xd xp xa xb : Word) : (writeWords xd xp xa xb s).ca = xa := rfl
@[simp] theorem writeWords_cb (xd xp xa xb : Word) : (writeWords xd xp xa xb s).cb = xb := rfl
@[simp] theorem writeWords_qAck (xd xp xa xb : Word) : (writeWords xd xp xa xb s).qAck = s.qAck := rfl
@[simp] theorem writeWords_qMatched (xd xp xa xb : Word) : (writeWords xd xp xa xb s).qMatched = s.qMatched := rfl
@[simp] theorem writeWords_qReqSync (xd xp xa xb : Word) : (writeWords xd xp xa xb s).qReqSync = s.qReqSync := rfl
@[simp] theorem writeWords_initialised (xd xp xa xb : Word) : (writeWords xd xp xa xb s).initialised = s.initialised := rfl
@[simp] theorem writeWords_reqPrev (xd xp xa xb : Word) : (writeWords xd xp xa xb s).reqPrev = s.reqPrev := rfl
@[simp] theorem writeWords_reqMask (xd xp xa xb : Word) : (writeWords xd xp xa xb s).reqMask = s.reqMask := rfl
@[simp] theorem writeWords_cycle (xd xp xa xb : Word) : (writeWords xd xp xa xb s).cycle = s.cycle := rfl
@[simp] theorem writeWords_inputs (xd xp xa xb : Word) : (writeWords xd xp xa xb s).inputs = s.inputs := rfl
@[simp] theorem writeWords_results (xd xp xa xb : Word) : (writeWords xd xp xa xb s).results = s.results := rfl

/-! clearHandshake: the handshake is reset. -/

@[simp] theorem clearHandshake_d : (clearHandshake s).d = s.d := rfl
@[simp] theorem clearHandshake_p : (clearHandshake s).p = s.p := rfl
@[simp] theorem clearHandshake_ca : (clearHandshake s).ca = s.ca := rfl
@[simp] theorem clearHandshake_cb : (clearHandshake s).cb = s.cb := rfl
@[simp] theorem clearHandshake_qAck : (clearHandshake s).qAck = false := rfl
@[simp] theorem clearHandshake_qMatched : (clearHandshake s).qMatched = 0x00#8 := rfl
@[simp] theorem clearHandshake_qReqSync : (clearHandshake s).qReqSync = s.qReqSync := rfl
@[simp] theorem clearHandshake_initialised : (clearHandshake s).initialised = s.initialised := rfl
@[simp] theorem clearHandshake_reqPrev : (clearHandshake s).reqPrev = s.reqPrev := rfl
@[simp] theorem clearHandshake_reqMask : (clearHandshake s).reqMask = s.reqMask := rfl
@[simp] theorem clearHandshake_cycle : (clearHandshake s).cycle = s.cycle := rfl
@[simp] theorem clearHandshake_inputs : (clearHandshake s).inputs = s.inputs := rfl
@[simp] theorem clearHandshake_results : (clearHandshake s).results = s.results := rfl

/-! markInitialised: the ghost flag is set. -/

@[simp] theorem markInitialised_d : (markInitialised s).d = s.d := rfl
@[simp] theorem markInitialised_p : (markInitialised s).p = s.p := rfl
@[simp] theorem markInitialised_ca : (markInitialised s).ca = s.ca := rfl
@[simp] theorem markInitialised_cb : (markInitialised s).cb = s.cb := rfl
@[simp] theorem markInitialised_qAck : (markInitialised s).qAck = s.qAck := rfl
@[simp] theorem markInitialised_qMatched : (markInitialised s).qMatched = s.qMatched := rfl
@[simp] theorem markInitialised_qReqSync : (markInitialised s).qReqSync = s.qReqSync := rfl
@[simp] theorem markInitialised_initialised : (markInitialised s).initialised = true := rfl
@[simp] theorem markInitialised_reqPrev : (markInitialised s).reqPrev = s.reqPrev := rfl
@[simp] theorem markInitialised_reqMask : (markInitialised s).reqMask = s.reqMask := rfl
@[simp] theorem markInitialised_cycle : (markInitialised s).cycle = s.cycle := rfl
@[simp] theorem markInitialised_inputs : (markInitialised s).inputs = s.inputs := rfl
@[simp] theorem markInitialised_results : (markInitialised s).results = s.results := rfl

/-! raiseAck: the acknowledge rises. -/

@[simp] theorem raiseAck_d (m : Word) : (raiseAck m s).d = s.d := rfl
@[simp] theorem raiseAck_p (m : Word) : (raiseAck m s).p = s.p := rfl
@[simp] theorem raiseAck_ca (m : Word) : (raiseAck m s).ca = s.ca := rfl
@[simp] theorem raiseAck_cb (m : Word) : (raiseAck m s).cb = s.cb := rfl
@[simp] theorem raiseAck_qAck (m : Word) : (raiseAck m s).qAck = true := rfl
@[simp] theorem raiseAck_qMatched (m : Word) : (raiseAck m s).qMatched = m := rfl
@[simp] theorem raiseAck_qReqSync (m : Word) : (raiseAck m s).qReqSync = s.qReqSync := rfl
@[simp] theorem raiseAck_initialised (m : Word) : (raiseAck m s).initialised = s.initialised := rfl
@[simp] theorem raiseAck_reqPrev (m : Word) : (raiseAck m s).reqPrev = s.reqPrev := rfl
@[simp] theorem raiseAck_reqMask (m : Word) : (raiseAck m s).reqMask = s.reqMask := rfl
@[simp] theorem raiseAck_cycle (m : Word) : (raiseAck m s).cycle = s.cycle := rfl
@[simp] theorem raiseAck_inputs (m : Word) : (raiseAck m s).inputs = s.inputs := rfl
@[simp] theorem raiseAck_results (m : Word) : (raiseAck m s).results = s.results := rfl

/-! lowerAck: the acknowledge falls. -/

@[simp] theorem lowerAck_d : (lowerAck s).d = s.d := rfl
@[simp] theorem lowerAck_p : (lowerAck s).p = s.p := rfl
@[simp] theorem lowerAck_ca : (lowerAck s).ca = s.ca := rfl
@[simp] theorem lowerAck_cb : (lowerAck s).cb = s.cb := rfl
@[simp] theorem lowerAck_qAck : (lowerAck s).qAck = false := rfl
@[simp] theorem lowerAck_qMatched : (lowerAck s).qMatched = s.qMatched := rfl
@[simp] theorem lowerAck_qReqSync : (lowerAck s).qReqSync = s.qReqSync := rfl
@[simp] theorem lowerAck_initialised : (lowerAck s).initialised = s.initialised := rfl
@[simp] theorem lowerAck_reqPrev : (lowerAck s).reqPrev = s.reqPrev := rfl
@[simp] theorem lowerAck_reqMask : (lowerAck s).reqMask = s.reqMask := rfl
@[simp] theorem lowerAck_cycle : (lowerAck s).cycle = s.cycle := rfl
@[simp] theorem lowerAck_inputs : (lowerAck s).inputs = s.inputs := rfl
@[simp] theorem lowerAck_results : (lowerAck s).results = s.results := rfl

/-! sampleRequest: an edge samples the request. -/

@[simp] theorem sampleRequest_d (io : Ports) : (sampleRequest io s).d = s.d := rfl
@[simp] theorem sampleRequest_p (io : Ports) : (sampleRequest io s).p = s.p := rfl
@[simp] theorem sampleRequest_ca (io : Ports) : (sampleRequest io s).ca = s.ca := rfl
@[simp] theorem sampleRequest_cb (io : Ports) : (sampleRequest io s).cb = s.cb := rfl
@[simp] theorem sampleRequest_qAck (io : Ports) : (sampleRequest io s).qAck = s.qAck := rfl
@[simp] theorem sampleRequest_qMatched (io : Ports) : (sampleRequest io s).qMatched = s.qMatched := rfl
@[simp] theorem sampleRequest_qReqSync (io : Ports) : (sampleRequest io s).qReqSync = shiftRequest io.qReq s.qReqSync := rfl
@[simp] theorem sampleRequest_initialised (io : Ports) : (sampleRequest io s).initialised = s.initialised := rfl
@[simp] theorem sampleRequest_reqPrev (io : Ports) : (sampleRequest io s).reqPrev = io.qReq := rfl
@[simp] theorem sampleRequest_reqMask (io : Ports) : (sampleRequest io s).reqMask = if requestRises io s then io.qMask else s.reqMask := rfl
@[simp] theorem sampleRequest_cycle (io : Ports) : (sampleRequest io s).cycle = s.cycle + 1 := rfl
@[simp] theorem sampleRequest_inputs (io : Ports) : (sampleRequest io s).inputs = s.inputs := rfl
@[simp] theorem sampleRequest_results (io : Ports) : (sampleRequest io s).results = s.results := rfl

/-! withInputs: the stream is replaced. -/

@[simp] theorem withInputs_d (xs : List Input) : (withInputs xs s).d = s.d := rfl
@[simp] theorem withInputs_p (xs : List Input) : (withInputs xs s).p = s.p := rfl
@[simp] theorem withInputs_ca (xs : List Input) : (withInputs xs s).ca = s.ca := rfl
@[simp] theorem withInputs_cb (xs : List Input) : (withInputs xs s).cb = s.cb := rfl
@[simp] theorem withInputs_qAck (xs : List Input) : (withInputs xs s).qAck = s.qAck := rfl
@[simp] theorem withInputs_qMatched (xs : List Input) : (withInputs xs s).qMatched = s.qMatched := rfl
@[simp] theorem withInputs_qReqSync (xs : List Input) : (withInputs xs s).qReqSync = s.qReqSync := rfl
@[simp] theorem withInputs_initialised (xs : List Input) : (withInputs xs s).initialised = s.initialised := rfl
@[simp] theorem withInputs_reqPrev (xs : List Input) : (withInputs xs s).reqPrev = s.reqPrev := rfl
@[simp] theorem withInputs_reqMask (xs : List Input) : (withInputs xs s).reqMask = s.reqMask := rfl
@[simp] theorem withInputs_cycle (xs : List Input) : (withInputs xs s).cycle = s.cycle := rfl
@[simp] theorem withInputs_inputs (xs : List Input) : (withInputs xs s).inputs = xs := rfl
@[simp] theorem withInputs_results (xs : List Input) : (withInputs xs s).results = s.results := rfl

end Sys2Proof.Machine
end

