-- ==== Sys2Proof/Laws/Word.lean ====
section
/-! SUPPORT. One channel's bit of a word: the word operators act on every channel by itself (00_scope.md R8). -/

namespace Sys2Proof

@[simp] theorem bit_and (x y : Word) (i : Channel) : bit (x &&& y) i = (bit x i && bit y i) := BitVec.getLsbD_and

@[simp] theorem bit_or (x y : Word) (i : Channel) : bit (x ||| y) i = (bit x i || bit y i) := BitVec.getLsbD_or

@[simp] theorem bit_xor (x y : Word) (i : Channel) : bit (x ^^^ y) i = (bit x i ^^ bit y i) := BitVec.getLsbD_xor

@[simp] theorem bit_not (x : Word) (i : Channel) : bit (~~~x) i = !bit x i := by
  simp [bit, i.isLt]

@[simp] theorem bit_zero (i : Channel) : bit 0x00#8 i = false := by simp [bit]

@[simp] theorem bit_ones (i : Channel) : bit 0xFF#8 i = true := by revert i; decide

@[simp] theorem bit_allOnes (i : Channel) : bit allOnes i = true := bit_ones i

/-- Words that agree on every channel are equal. -/
theorem word_ext {x y : Word} (h : ∀ i, bit x i = bit y i) : x = y := by
  apply BitVec.eq_of_getLsbD_eq
  intro i hi
  exact h ⟨i, hi⟩

end Sys2Proof
end

