-- ==== Sys2Proof/Laws/Ops.lean ====
section
/-! SUPPORT. What each shared operation can do, said once: the initialisation check, the four transitions field by field, and exec
inverted. -/

namespace Sys2Proof.Machine

/-- Before the first INIT the check faults, and after it the operation is performed (60_exceptions.md R163). -/
theorem whenInitialised_of_true {s : State} (h : s.initialised = true) (op : Instr)
    (k : State → Host.Outcome State Fault Refusal) : whenInitialised op s k = k s := by
  simp [whenInitialised, h]

theorem whenInitialised_of_false {s : State} (h : s.initialised = false) (op : Instr)
    (k : State → Host.Outcome State Fault Refusal) :
    whenInitialised op s k = .fault (.uninitialised (.operation op)) := by
  simp [whenInitialised, h]

/-- An operation that answers a next state passed the check. -/
theorem whenInitialised_next {op : Instr} {s t : State} {k : State → Host.Outcome State Fault Refusal}
    (h : whenInitialised op s k = .next t) : s.initialised = true ∧ k s = .next t := by
  unfold whenInitialised at h
  split at h
  · exact ⟨‹_›, h⟩
  · cases h

section Transitions

variable (s : State)

/-! INIT writes the baseline, the settled counters and the idle handshake (10_state.md R32). -/

@[simp] theorem initTransition_d (r : Word) : (initTransition r s).d = ~~~r := rfl
@[simp] theorem initTransition_p (r : Word) : (initTransition r s).p = 0x00#8 := rfl
@[simp] theorem initTransition_ca (r : Word) : (initTransition r s).ca = 0xFF#8 := rfl
@[simp] theorem initTransition_cb (r : Word) : (initTransition r s).cb = 0xFF#8 := rfl
@[simp] theorem initTransition_qAck (r : Word) : (initTransition r s).qAck = false := rfl
@[simp] theorem initTransition_qMatched (r : Word) : (initTransition r s).qMatched = 0x00#8 := rfl
@[simp] theorem initTransition_qReqSync (r : Word) : (initTransition r s).qReqSync = s.qReqSync := rfl
@[simp] theorem initTransition_initialised (r : Word) : (initTransition r s).initialised = true := rfl
@[simp] theorem initTransition_reqPrev (r : Word) : (initTransition r s).reqPrev = s.reqPrev := rfl
@[simp] theorem initTransition_reqMask (r : Word) : (initTransition r s).reqMask = s.reqMask := rfl
@[simp] theorem initTransition_cycle (r : Word) : (initTransition r s).cycle = s.cycle := rfl
@[simp] theorem initTransition_inputs (r : Word) : (initTransition r s).inputs = s.inputs := rfl
@[simp] theorem initTransition_results (r : Word) : (initTransition r s).results = s.results := rfl

/-! SAMPLE writes the four words and nothing else (40_sampler.md R100); the four words channel by channel are in Laws/Sampler.lean. -/

@[simp] theorem sampleTransition_qAck (r : Word) : (sampleTransition r s).qAck = s.qAck := rfl
@[simp] theorem sampleTransition_qMatched (r : Word) : (sampleTransition r s).qMatched = s.qMatched := rfl
@[simp] theorem sampleTransition_qReqSync (r : Word) : (sampleTransition r s).qReqSync = s.qReqSync := rfl
@[simp] theorem sampleTransition_initialised (r : Word) : (sampleTransition r s).initialised = s.initialised := rfl
@[simp] theorem sampleTransition_reqPrev (r : Word) : (sampleTransition r s).reqPrev = s.reqPrev := rfl
@[simp] theorem sampleTransition_reqMask (r : Word) : (sampleTransition r s).reqMask = s.reqMask := rfl
@[simp] theorem sampleTransition_cycle (r : Word) : (sampleTransition r s).cycle = s.cycle := rfl
@[simp] theorem sampleTransition_inputs (r : Word) : (sampleTransition r s).inputs = s.inputs := rfl
@[simp] theorem sampleTransition_results (r : Word) : (sampleTransition r s).results = s.results := rfl

/-! POLL writes `P` and gives its result (41_query_ack.md R130, R136). -/

@[simp] theorem pollTransition_d (m : Word) : (pollTransition m s).d = s.d := rfl
@[simp] theorem pollTransition_p (m : Word) : (pollTransition m s).p = acknowledge s.p (matchedWord m s.p) := rfl
@[simp] theorem pollTransition_ca (m : Word) : (pollTransition m s).ca = s.ca := rfl
@[simp] theorem pollTransition_cb (m : Word) : (pollTransition m s).cb = s.cb := rfl
@[simp] theorem pollTransition_qAck (m : Word) : (pollTransition m s).qAck = s.qAck := rfl
@[simp] theorem pollTransition_qMatched (m : Word) : (pollTransition m s).qMatched = s.qMatched := rfl
@[simp] theorem pollTransition_qReqSync (m : Word) : (pollTransition m s).qReqSync = s.qReqSync := rfl
@[simp] theorem pollTransition_initialised (m : Word) : (pollTransition m s).initialised = s.initialised := rfl
@[simp] theorem pollTransition_reqPrev (m : Word) : (pollTransition m s).reqPrev = s.reqPrev := rfl
@[simp] theorem pollTransition_reqMask (m : Word) : (pollTransition m s).reqMask = s.reqMask := rfl
@[simp] theorem pollTransition_cycle (m : Word) : (pollTransition m s).cycle = s.cycle := rfl
@[simp] theorem pollTransition_inputs (m : Word) : (pollTransition m s).inputs = s.inputs := rfl
@[simp] theorem pollTransition_results (m : Word) :
    (pollTransition m s).results = s.results ++ [.poll (matchedWord m s.p)] := rfl

/-- READ only gives its result (41_query_ack.md R140). -/
theorem readTransition_eq : readTransition s = record (.read s.d) s := rfl

end Transitions

/-- What POLL leaves in `P`, channel by channel: the bits of the mask cleared (41_query_ack.md R130). -/
@[simp] theorem bit_acknowledge_matched (m p : Word) (i : Channel) :
    bit (acknowledge p (matchedWord m p)) i = (bit p i && !bit m i) := by
  simp only [acknowledge, matchedWord, bit_xor, bit_and]
  cases bit p i <;> cases bit m i <;> rfl

@[simp] theorem bit_matchedWord (m p : Word) (i : Channel) : bit (matchedWord m p) i = (bit m i && bit p i) :=
  bit_and m p i

/-- After an INIT every operation is its transition. -/
def transition : Instr → State → State
  | .init r, s => initTransition r s
  | .sample r, s => sampleTransition r s
  | .poll m, s => pollTransition m s
  | .read, s => readTransition s

theorem exec_of_initialised {s : State} (h : s.initialised = true) (op : Instr) : exec op s = .next (transition op s) := by
  cases op <;>
    simp [exec, execInit, execSample, execPoll, execRead, whenInitialised_of_true h, transition]

/-- Everything exec can do where it answers a next state: the operation's transition, of an initialised machine but for INIT. -/
theorem exec_next {op : Instr} {s t : State} (h : exec op s = .next t) :
    t = transition op s ∧ (s.initialised = true ∨ ∃ r, op = .init r) := by
  cases op with
  | init r => exact ⟨by simpa [exec, execInit, transition] using h.symm, .inr ⟨r, rfl⟩⟩
  | sample r =>
    simp only [exec, execSample] at h
    obtain ⟨hi, hk⟩ := whenInitialised_next h
    exact ⟨by simpa [transition] using hk.symm, .inl hi⟩
  | poll m =>
    simp only [exec, execPoll] at h
    obtain ⟨hi, hk⟩ := whenInitialised_next h
    exact ⟨by simpa [transition] using hk.symm, .inl hi⟩
  | read =>
    simp only [exec, execRead] at h
    obtain ⟨hi, hk⟩ := whenInitialised_next h
    exact ⟨by simpa [transition] using hk.symm, .inl hi⟩

end Sys2Proof.Machine
end

