-- ==== Sys2Proof/Laws/Handshake.lean ====
section
/-! SUPPORT. What a clock edge can do, said once, and the synchronizer's shift. -/

namespace Sys2Proof.Machine

@[simp] theorem shiftRequest_nil (q : Bool) : shiftRequest q [] = [] := rfl

theorem shiftRequest_cons (q b : Bool) (rest : List Bool) : shiftRequest q (b :: rest) = q :: (b :: rest).dropLast := rfl

/-- The chain keeps its length: it has `SYNC_STAGES` flip-flops for good (10_state.md R28). -/
@[simp] theorem length_shiftRequest (q : Bool) (chain : List Bool) : (shiftRequest q chain).length = chain.length := by
  cases chain <;> simp [shiftRequest]

/-- Shifting the newest level into a run of old ones (20_memory.md R50). -/
theorem shiftRequest_runs (q x y : Bool) (a b : Nat) :
    shiftRequest q (List.replicate a x ++ List.replicate (b + 1) y) = q :: (List.replicate a x ++ List.replicate b y) := by
  have key : (List.replicate a x ++ List.replicate (b + 1) y).dropLast = List.replicate a x ++ List.replicate b y := by
    rw [List.replicate_succ', ← List.append_assoc, List.dropLast_concat]
  generalize hl : List.replicate a x ++ List.replicate (b + 1) y = l at key
  cases l with
  | nil => simp at hl
  | cons c cs => rw [shiftRequest_cons, key]

/-- With a chain the block sees its last flip-flop, and with none `q_req` itself (20_memory.md R50). -/
theorem requestSeen_nil {io : Ports} {s : State} (h : s.qReqSync = []) : requestSeen io s = io.qReq := by
  simp [requestSeen, h]

theorem requestSeen_runs {io : Ports} {s : State} {x y : Bool} {a b : Nat}
    (h : s.qReqSync = List.replicate a x ++ List.replicate (b + 1) y) : requestSeen io s = y := by
  simp [requestSeen, h, List.getLast?_append, List.getLast?_replicate]

/-- Everything a clock edge can do where it answers a next state (20_memory.md R58): no handshake was broken, and it performed
INIT, or the operations of an edge with `init` = 0, which before the first INIT are none. -/
theorem clockEdge_next {order : SameCycleOrder} {io : Ports} {s t : State} (h : clockEdge order io s = .next t) :
    handshakeViolated io s = false ∧
      ((io.init = true ∧ t = sampleRequest io (initTransition io.rawIn s)) ∨
        (io.init = false ∧ (s.initialised = true ∨ (io.tick = false ∧ acceptsQuery io s = false)) ∧
          t = sampleRequest io (performEdge order io s))) := by
  unfold clockEdge at h
  split at h
  · cases h
  · rename_i hv
    refine ⟨by simpa using hv, ?_⟩
    split at h
    · exact .inl ⟨‹_›, by simpa using h.symm⟩
    · split at h
      · cases h
      · rename_i hi hu
        refine .inr ⟨by simpa using hi, ?_, by simpa using h.symm⟩
        cases hs : s.initialised with
        | true => exact .inl rfl
        | false => exact .inr (by simpa [hs] using hu)

/-- An edge that breaks no handshake and may perform its operations answers the next state of them. -/
theorem clockEdge_performs {order : SameCycleOrder} {io : Ports} {s : State} (hv : handshakeViolated io s = false)
    (hi : io.init = false) (hs : s.initialised = true) :
    clockEdge order io s = .next (sampleRequest io (performEdge order io s)) := by
  simp [clockEdge, hv, hi, hs]

/-- What the operations of an edge leave alone (10_state.md section 6). -/
theorem performEdge_frame (order : SameCycleOrder) (io : Ports) (s : State) :
    (performEdge order io s).qReqSync = s.qReqSync ∧ (performEdge order io s).reqPrev = s.reqPrev ∧
      (performEdge order io s).reqMask = s.reqMask ∧ (performEdge order io s).cycle = s.cycle ∧
      (performEdge order io s).inputs = s.inputs ∧ (performEdge order io s).initialised = s.initialised := by
  unfold performEdge
  split_ifs <;> cases order <;> simp [pollThroughHandshake]

/-- An edge that accepts nothing and has no tick only may lower the acknowledge (20_memory.md R52, R53). -/
theorem performEdge_idle {order : SameCycleOrder} {io : Ports} {s : State} (ht : io.tick = false)
    (ha : acceptsQuery io s = false) : performEdge order io s = if releasesAck io s then lowerAck s else s := by
  simp [performEdge, ht, ha]

/-- A foreign read rides on an edge that answers a next state after an INIT (70_reset_and_hazards.md R188). -/
theorem foreignReadEdge_next {order : SameCycleOrder} {pick : Word} {io : Ports} {s t : State}
    (h : foreignReadEdge order pick io s = .next t) :
    s.initialised = true ∧ ∃ u, clockEdge order io s = .next u ∧ t = record (.foreignRead (tornWord pick s.d u.d)) u := by
  unfold foreignReadEdge at h
  split at h
  · split at h
    · exact ⟨‹_›, _, ‹_›, by simpa [outputs] using h.symm⟩
    · cases h
  · cases h
  · cases h

end Sys2Proof.Machine
end

