-- ==== Sys2Proof/Laws/PerInstr.lean ====
section
/-! SUPPORT. Statements made for every operation as syntax, one lemma per constructor. -/

namespace Sys2Proof.Laws.TableRow

/-- The opcode-table row of an operation: its mask and match (30_encoding.md R82). -/
def row : Instr → CommandWord × CommandWord
  | .init _ => (0xFF00#16, 0x1000#16)
  | .sample _ => (0xFF00#16, 0x2000#16)
  | .poll _ => (0xFF00#16, 0x3000#16)
  | .read => (0xFFFF#16, 0x4000#16)

/-- The operation is well formed, its word lies in its row, and the word's reserved field is 0 (30_encoding.md R80, R82). -/
def Statement (i : Instr) : Prop :=
  i.wellFormed = true ∧ encode i &&& (row i).1 = (row i).2 ∧ zField (encode i) = 0#4

theorem init (r : Word) : Statement (.init r) := by revert r; unfold Statement; decide

theorem sample (r : Word) : Statement (.sample r) := by revert r; unfold Statement; decide

theorem poll (mask : Word) : Statement (.poll mask) := by revert mask; unfold Statement; decide

theorem read : Statement .read := by unfold Statement; decide

end Sys2Proof.Laws.TableRow
end

