-- ==== Sys2Proof/Laws/Sampler.lean ====
section
/-! SUPPORT. The four words a SAMPLE writes, channel by channel, from the channel's own bits (40_sampler.md R119). -/

namespace Sys2Proof.Machine

variable (i : Channel) (r : Word) (s : State)

/-- Step 1 on one channel: it disagrees where its level equals its active-low raw level (40_sampler.md R101). -/
@[simp] theorem bit_changedWord (d r : Word) : bit (changedWord d r) i = (bit d i == bit r i) := by
  simp only [changedWord, pressedLevels, bit_xor, bit_not]
  cases bit d i <;> cases bit r i <;> rfl

/-- Step 2 on one channel (40_sampler.md R102). -/
theorem bit_sampleTransition_ca :
    bit (sampleTransition r s).ca i = !(bit s.ca i && (bit s.d i == bit r i)) := by
  simp [sampleTransition, nextCounterA]

/-- Step 3 on one channel (40_sampler.md R103). -/
theorem bit_sampleTransition_cb :
    bit (sampleTransition r s).cb i =
      ((!(bit s.ca i && (bit s.d i == bit r i))) ^^ (bit s.cb i && (bit s.d i == bit r i))) := by
  simp [sampleTransition, nextCounterA, nextCounterB]

/-- Steps 4 and 5 on one channel: it toggles where it disagrees and both counter bits are 0 (40_sampler.md R104, R105). -/
theorem bit_sampleTransition_d :
    bit (sampleTransition r s).d i =
      (bit s.d i ^^ ((bit s.d i == bit r i) && !bit s.ca i && !bit s.cb i)) := by
  simp only [sampleTransition, nextCounterA, nextCounterB, settledChange, toggledState, writeWords_d, bit_xor, bit_and,
    bit_not, bit_changedWord]
  cases bit s.d i <;> cases bit r i <;> cases bit s.ca i <;> cases bit s.cb i <;> rfl

/-- Step 6 on one channel: a toggle into pressed makes it pending (40_sampler.md R106). -/
theorem bit_sampleTransition_p :
    bit (sampleTransition r s).p i =
      (bit s.p i || (!bit s.d i && !bit r i && !bit s.ca i && !bit s.cb i)) := by
  simp only [sampleTransition, nextCounterA, nextCounterB, settledChange, toggledState, latchPresses, writeWords_p, bit_xor,
    bit_and, bit_or, bit_not, bit_changedWord]
  cases bit s.d i <;> cases bit r i <;> cases bit s.ca i <;> cases bit s.cb i <;> cases bit s.p i <;> rfl

end Sys2Proof.Machine
end

