-- ==== Sys2Proof/Tests/Slice0.lean ====
section
/-! SUPPORT. The model's own tests: expected values are those of spec/95_test_vectors.md or worked out by hand from the rule a test
names. After them, a witness for every statement that has hypotheses: a concrete state and operands that meet them together. -/

namespace Sys2Proof.Tests

open Sys2Proof.Machine

/-! ## Helpers -/

/-- An initialised machine with these four words, an idle handshake and no synchronizer. -/
def machine (d ca cb p : Word) : State :=
  { d := d, p := p, ca := ca, cb := cb, qAck := false, qMatched := 0x00#8, qReqSync := [], initialised := true,
    reqPrev := false, reqMask := 0x00#8, cycle := 0, inputs := [], results := [] }

/-- Port values with `init` = 0. -/
def ports (tick : Bool) (rawIn : Word) (qReq : Bool) (qMask : Word) : Ports :=
  { init := false, tick := tick, rawIn := rawIn, qReq := qReq, qMask := qMask }

/-- Port values of a quiet cycle with `init` = 1. -/
def initPorts (rawIn : Word) : Ports := { init := true, tick := false, rawIn := rawIn, qReq := false, qMask := 0x00#8 }

/-- The outcome is a next state that passes the check. -/
def nextPasses (o : Host.Outcome State Fault Refusal) (check : State → Bool) : Bool :=
  match o with
  | .next t => check t
  | .fault _ => false
  | .refused _ => false

/-- The four words of a state, in the order `D CA CB P` of 95_test_vectors.md. -/
def words (s : State) : List Word := [s.d, s.ca, s.cb, s.p]

/-! ## Decoding, words written out from 30_encoding.md R80 and R82 -/

theorem test_decode_init : decode 0b0001000011111111#16 = .ok (.init 0b11111111#8) := by decide
theorem test_decode_sample : decode 0b0010000011111110#16 = .ok (.sample 0b11111110#8) := by decide
theorem test_decode_poll : decode 0b0011000000000001#16 = .ok (.poll 0b00000001#8) := by decide
theorem test_decode_read : decode 0b0100000000000000#16 = .ok .read := by decide
theorem test_decode_read_with_operand : decode 0x4001#16 = .error .reservedEncoding := by decide
theorem test_decode_reserved_field : decode 0x2100#16 = .error .reservedEncoding := by decide
theorem test_decode_high_selector : decode 0x5000#16 = .error .reservedEncoding := by decide
theorem test_encode_words : [Instr.init 0xFF#8, .sample 0xFE#8, .poll 0x01#8, .read].map encode =
    [0x10FF#16, 0x20FE#16, 0x3001#16, 0x4000#16] := by decide
theorem test_table_word : decodeTableWord 16 0x30AA = some (.poll 0xAA#8) := by decide
theorem test_table_word_refused : decodeTableWord 16 0x4001 = none := by decide

/-! ## Well-formedness: each check refuses an ill-formed term -/

theorem test_word_outside_map_ill_formed : commandWellFormed 0x0000#16 = false := by decide
theorem test_word_reserved_field_ill_formed : commandWellFormed 0x3100#16 = false := by decide
theorem test_word_read_operand_ill_formed : commandWellFormed 0x4080#16 = false := by decide
theorem test_literal_ill_formed : isByteLiteral 256 = false := by decide
theorem test_hold_count_ill_formed : isHoldCount 0 = false := by decide
theorem test_channel_number_ill_formed : isChannelNumber 8 = false := by decide
theorem test_line_ill_formed : asmWellFormed (.hold 0xFE 0) = false := by decide
theorem test_operations_well_formed : [Instr.init 0x00#8, .sample 0xFF#8, .poll 0x00#8, .read].all Instr.wellFormed := by decide

/-! ## The operations -/

/-- 95_test_vectors.md section 4: `INIT 0x5A`. -/
theorem test_init_baseline :
    nextPasses (exec (.init 0x5A#8) State.reset) (fun t => words t == [0xA5#8, 0xFF#8, 0xFF#8, 0x00#8]) := by decide

/-- 42_startup_init.md R154: a repeated INIT discards a pending press and a count in progress. -/
theorem test_init_discards :
    nextPasses (exec (.init 0xFE#8) (machine 0x01#8 0xFE#8 0xFF#8 0x01#8))
      (fun t => words t == [0x01#8, 0xFF#8, 0xFF#8, 0x00#8]) := by decide

/-- 95_test_vectors.md S6, row 3: two channels in different phases. -/
theorem test_sample_two_phases :
    nextPasses (exec (.sample 0xFC#8) (machine 0x00#8 0xFE#8 0xFF#8 0x00#8))
      (fun t => words t == [0x00#8, 0xFD#8, 0xFE#8, 0x00#8]) := by decide

/-- 95_test_vectors.md L3-3, row 11: channel 0 toggles into released and keeps its pending press. -/
theorem test_sample_release_keeps_pending :
    nextPasses (exec (.sample 0xFD#8) (machine 0x03#8 0xFE#8 0xFE#8 0x03#8))
      (fun t => words t == [0x02#8, 0xFF#8, 0xFF#8, 0x03#8]) := by decide

/-- 95_test_vectors.md section 3: `P` = 0x05, `POLL 0x06`. -/
theorem test_poll_masks :
    nextPasses (exec (.poll 0x06#8) (machine 0x00#8 0xFF#8 0xFF#8 0x05#8))
      (fun t => t.p == 0x01#8 && t.results == [.poll 0x04#8]) := by decide

/-- 95_test_vectors.md section 3: `P` = 0xFF, `POLL 0xAA`. -/
theorem test_poll_clears :
    nextPasses (exec (.poll 0xAA#8) (machine 0x00#8 0xFF#8 0xFF#8 0xFF#8))
      (fun t => t.p == 0x55#8 && t.results == [.poll 0xAA#8]) := by decide

/-- 95_test_vectors.md S9, row 10: READ shows the level, not the pending press. -/
theorem test_read_level :
    nextPasses (exec .read (machine 0x00#8 0xFF#8 0xFF#8 0x01#8))
      (fun t => t.p == 0x01#8 && t.results == [.read 0x00#8]) := by decide

/-- 95_test_vectors.md FLT1: `POLL 0x01` as the first operation. -/
theorem test_first_poll_faults :
    step (State.reset.withFetchWord 16 0x3001) = .fault (.uninitialised (.operation (.poll 0x01#8))) := rfl

theorem test_reserved_word_refused : step (State.reset.withFetchWord 16 0x0000) = .refused .reservedEncoding := rfl

/-! ## The clock edge -/

/-- 95_test_vectors.md Q1, SAMPLE_FIRST. -/
theorem test_edge_sample_first :
    nextPasses (clockEdge .sampleFirst (ports true 0xFE#8 true 0x01#8) (machine 0x00#8 0xFE#8 0xFE#8 0x00#8))
      (fun t => words t == [0x01#8, 0xFF#8, 0xFF#8, 0x00#8] && t.qMatched == 0x01#8 && t.qAck) := by decide

/-- 95_test_vectors.md Q1, POLL_FIRST. -/
theorem test_edge_poll_first :
    nextPasses (clockEdge .pollFirst (ports true 0xFE#8 true 0x01#8) (machine 0x00#8 0xFE#8 0xFE#8 0x00#8))
      (fun t => words t == [0x01#8, 0xFF#8, 0xFF#8, 0x01#8] && t.qMatched == 0x00#8 && t.qAck) := by decide

/-- 95_test_vectors.md HS1, edge 2: accept. -/
theorem test_edge_accept :
    nextPasses (clockEdge .pollFirst (ports false 0xFF#8 true 0x01#8) (machine 0x00#8 0xFF#8 0xFF#8 0x05#8))
      (fun t => t.qAck && t.qMatched == 0x01#8 && t.p == 0x04#8) := by decide

/-- 95_test_vectors.md HS1, edge 4: release, with `q_matched` kept. -/
theorem test_edge_release :
    nextPasses (clockEdge .pollFirst (ports false 0xFF#8 false 0x01#8)
        { machine 0x00#8 0xFF#8 0xFF#8 0x04#8 with qAck := true, qMatched := 0x01#8, reqPrev := true, reqMask := 0x01#8 })
      (fun t => !t.qAck && t.qMatched == 0x01#8 && t.p == 0x04#8) := by decide

/-- 20_memory.md R50: `q_req` enters the chain at `q_req_sync[0]`, and the block does not see it yet. -/
theorem test_edge_synchronizer :
    nextPasses (clockEdge .pollFirst (ports false 0xFF#8 true 0x01#8)
        { machine 0x00#8 0xFF#8 0xFF#8 0x05#8 with qReqSync := [false, false] })
      (fun t => !t.qAck && t.qReqSync == [true, false] && t.p == 0x05#8) := by decide

/-- 95_test_vectors.md FLT1, last row: `q_mask` changes from 0x01 to 0x03 before the acknowledge. -/
theorem test_edge_mask_change_faults :
    clockEdge .pollFirst (ports false 0xFF#8 true 0x03#8)
      { machine 0x00#8 0xFF#8 0xFF#8 0x00#8 with qReqSync := [true, false], reqPrev := true, reqMask := 0x01#8 } =
    .fault (.handshakeViolation (.cycle 0)) := rfl

/-- 60_exceptions.md R169: a broken handshake before the first INIT is recorded as HANDSHAKE_VIOLATION. -/
theorem test_edge_fault_order :
    clockEdge .pollFirst (ports true 0xFF#8 false 0x00#8)
      { machine 0x00#8 0xFF#8 0xFF#8 0x00#8 with initialised := false, reqPrev := true } =
    .fault (.handshakeViolation (.cycle 0)) := rfl

/-- 70_reset_and_hazards.md R188: bits 7 to 4 from before the edge, 3 to 0 from after it. -/
theorem test_torn_word : tornWord 0xF0#8 0xA5#8 0x3C#8 = 0xAC#8 := by decide

/-! ## The assembler -/

/-- 95_test_vectors.md L3-1, its first, third and a pseudo-instruction line. -/
theorem test_assemble_text :
    assembleText ("INIT   0xFF        ; 0x10FF\nHOLD   0b11111110, 2\nPRESSCH 1\nPOLLALL\n".toList) =
      some [0x10FF#16, 0x20FE#16, 0x20FE#16, 0x3002#16, 0x30FF#16] := by decide

theorem test_assemble_refuses_large_literal : assembleText "POLL 256".toList = none := by decide

/-- 00_scope.md R6: WINDOW is 4. -/
theorem test_window : Config.window = 4 := by decide

/-! ## Witnesses: the hypotheses of every statement can be met together -/

theorem witness_decodeOfEncode : Instr.wellFormed (.poll 0xFF#8) = true := rfl
theorem witness_encodeOfDecode : decode 0x20FE#16 = .ok (.sample 0xFE#8) := test_decode_sample

theorem witness_reservedWord :
    (State.reset.withFetchWord 16 0x4001).inputs = [.command 0x4001#16] ∧ commandWellFormed 0x4001#16 = false := by decide

theorem witness_step :
    (State.reset.withFetchWord 16 0x10FF).inputs = [.command 0x10FF#16] ∧ decode 0x10FF#16 = .ok (.init 0xFF#8) ∧
      (withInputs [.edge (initPorts 0xFF#8)] State.reset).inputs = [.edge (initPorts 0xFF#8)] ∧
      (withInputs [.edgeForeignRead (initPorts 0xFF#8)] State.reset).inputs = [.edgeForeignRead (initPorts 0xFF#8)] ∧
      State.reset.inputs = [] := by decide

theorem witness_initCycle :
    (initPorts 0xFF#8).init = true ∧ handshakeViolated (initPorts 0xFF#8) (machine 0x00#8 0xFF#8 0xFF#8 0x00#8) = false ∧
      { machine 0x00#8 0xFF#8 0xFF#8 0x00#8 with qAck := true }.qAck = true ∧
      requestSeen { initPorts 0xFF#8 with qReq := true } (machine 0x00#8 0xFF#8 0xFF#8 0x00#8) = true := by decide

/-- Two quiet INIT cycles from a quiet machine, and a machine that boots in order. -/
theorem witness_boot :
    quietHandshake (machine 0x00#8 0xFF#8 0xFF#8 0x00#8) ∧
      (∀ io ∈ [initPorts 0xFF#8] ++ [initPorts 0xFE#8], io.init = true ∧ io.tick = false ∧ io.qReq = false) ∧
      holdsNoRequest [ports true 0xFE#8 false 0x00#8] := by decide

/-- A settled machine with channel 0 released: raw bit 0 = 0 disagrees, raw bit 0 = 1 agrees, three and four disagreeing ticks. -/
theorem witness_samples :
    (machine 0x00#8 0xFF#8 0xFF#8 0x00#8).initialised = true ∧ counterValue 0 (machine 0x00#8 0xFF#8 0xFF#8 0x00#8) = 3 ∧
      (∀ x ∈ List.replicate 4 0xFE#8, bit x 0 = bit (machine 0x00#8 0xFF#8 0xFF#8 0x00#8).d 0) ∧
      bit 0xFF#8 0 ≠ bit (machine 0x00#8 0xFF#8 0xFF#8 0x00#8).d 0 ∧ [0xFE#8, 0xFE#8, 0xFE#8].length < 4 ∧
      4 ≤ (List.replicate 4 0xFE#8).length := by decide

/-- A counter at 1 runs out on the second disagreeing tick: both clauses at their boundary. -/
theorem witness_counterRunsOut :
    (∀ x ∈ [0xFE#8, 0xFE#8], bit x 0 = bit (machine 0x00#8 0xFF#8 0xFE#8 0x00#8).d 0) ∧
      [0xFE#8].length ≤ counterValue 0 (machine 0x00#8 0xFF#8 0xFE#8 0x00#8) ∧
      [0xFE#8, 0xFE#8].length = counterValue 0 (machine 0x00#8 0xFF#8 0xFE#8 0x00#8) + 1 := by decide

theorem witness_stableInput : ∀ x ∈ [0x5A#8, 0x5B#8], bit x 1 = bit 0x5A#8 1 := by decide

/-- A pending bit rises in a SAMPLE, and falls in a POLL and in an INIT. -/
theorem witness_pendingBit :
    (nextPasses (exec (.sample 0xFE#8) (machine 0x00#8 0xFE#8 0xFE#8 0x00#8))
      (fun t => !bit (machine 0x00#8 0xFE#8 0xFE#8 0x00#8).d 0 && bit t.d 0 && bit t.p 0)) ∧
    (nextPasses (exec (.poll 0x01#8) (machine 0x00#8 0xFF#8 0xFF#8 0x01#8)) (fun t => !bit t.p 0)) ∧
    (nextPasses (exec (.init 0xFF#8) (machine 0x00#8 0xFF#8 0xFF#8 0x01#8)) (fun t => !bit t.p 0)) := by decide

/-- Two states and operands that differ on every channel but 0. -/
theorem witness_channels :
    channelView 0 (.sample 0xFE#8) = channelView 0 (.sample 0x00#8) ∧
      sameChannel 0 (machine 0x00#8 0xFF#8 0xFF#8 0x00#8) (machine 0xFE#8 0x01#8 0x01#8 0xFE#8) ∧
      (nextPasses (exec (.sample 0xFE#8) (machine 0x00#8 0xFF#8 0xFF#8 0x00#8)) fun _ => true) ∧
      (nextPasses (exec (.sample 0x00#8) (machine 0xFE#8 0x01#8 0x01#8 0xFE#8)) fun _ => true) := by decide

theorem witness_initialised : (machine 0x01#8 0xFF#8 0xFF#8 0x81#8).initialised = true := rfl

/-- A press reported by a POLL is set again by a later toggle into pressed. -/
theorem witness_pollReportsOnce :
    bit 0x01#8 0 = true ∧
      runOps [] (pollTransition 0x01#8 (machine 0x00#8 0xFE#8 0xFE#8 0x01#8)) =
        .next (pollTransition 0x01#8 (machine 0x00#8 0xFE#8 0xFE#8 0x01#8)) ∧
      bit (pollTransition 0x01#8 (machine 0x00#8 0xFE#8 0xFE#8 0x01#8)).p 0 = false ∧
      nextPasses (exec (.sample 0xFE#8) (pollTransition 0x01#8 (machine 0x00#8 0xFE#8 0xFE#8 0x01#8))) (fun t => bit t.p 0) :=
  ⟨by decide, rfl, by decide, by decide⟩

/-- A POLL gives a next state, and so does an operation that is none. -/
theorem witness_ownWord :
    isPoll .read = false ∧ (nextPasses (exec .read (machine 0x01#8 0xFF#8 0xFF#8 0x81#8)) fun _ => true) ∧
      (nextPasses (exec (.poll 0x80#8) (machine 0x01#8 0xFF#8 0xFF#8 0x81#8)) fun _ => true) := by decide

/-- Next states of an INIT, of a Consumer's operation and of a READ. -/
theorem witness_frames :
    isInit (.sample 0xFE#8) = false ∧ issuer .read = .consumer ∧ issuer (.sample 0xFE#8) ≠ .consumer ∧
      (nextPasses (exec (.sample 0xFE#8) (machine 0x00#8 0xFF#8 0xFF#8 0x00#8)) fun _ => true) ∧
      (nextPasses (exec .read (machine 0x00#8 0xFF#8 0xFF#8 0x00#8)) fun _ => true) := by decide

/-- A step that moves the counters. -/
theorem witness_levelsMove :
    nextPasses (step ((machine 0x00#8 0xFF#8 0xFF#8 0x00#8).withFetchWord 16 0x20FE)) (fun t => t.ca != 0xFF#8) := by decide

theorem witness_totalAfterInit : (machine 0x00#8 0xFF#8 0xFF#8 0x00#8).initialised = true ∧ isInit (.init 0xFF#8) = true := by
  decide

/-- Before the first INIT, with an INIT word behind each: a READ word, an edge with a tick, an edge that withdraws its request. -/
theorem witness_faultIsNeverCleared :
    (isInit .read = false ∧
      (withInputs [.command (encode .read), .command 0x10FF#16] State.reset).inputs =
        [.command (encode .read), .command 0x10FF#16] ∧
      (withInputs [.command (encode .read), .command 0x10FF#16] State.reset).initialised = false) ∧
    (let s := withInputs [.edge (ports true 0xFF#8 false 0x00#8), .command 0x10FF#16] { State.reset with qReqSync := [] }
     handshakeViolated (ports true 0xFF#8 false 0x00#8) s = false ∧ (ports true 0xFF#8 false 0x00#8).init = false ∧
      s.initialised = false ∧ (ports true 0xFF#8 false 0x00#8).tick = true ∧
      s.inputs = [.edge (ports true 0xFF#8 false 0x00#8), .command 0x10FF#16]) ∧
    (let s := withInputs [.edge (ports false 0xFF#8 false 0x00#8), .command 0x10FF#16] { State.reset with reqPrev := true }
     handshakeViolated (ports false 0xFF#8 false 0x00#8) s = true ∧
      s.inputs = [.edge (ports false 0xFF#8 false 0x00#8), .command 0x10FF#16]) :=
  ⟨⟨rfl, rfl, rfl⟩, by decide, rfl, rfl⟩

theorem witness_staysInitialised :
    nextPasses (step ((machine 0x00#8 0xFF#8 0xFF#8 0x00#8).withFetchWord 16 0x4000)) (fun t => t.initialised) := by decide

theorem witness_powerUp : isInit .read = false := rfl

/-- The clauses of the edge's fault order, the first before any INIT. -/
theorem witness_edgeFaults :
    handshakeViolated (ports false 0xFF#8 false 0x00#8) { State.reset with reqPrev := true } = true ∧
      handshakeViolated (ports true 0xFF#8 false 0x00#8) { State.reset with qReqSync := [] } = false ∧
      (ports true 0xFF#8 false 0x00#8).tick = true ∧ State.reset.initialised = false ∧
      handshakeViolated (ports false 0xFF#8 false 0x00#8) { State.reset with qReqSync := [] } = false ∧
      requestSeen (ports false 0xFF#8 false 0x00#8) { State.reset with qReqSync := [] } = false ∧
      handshakeViolated (ports false 0xFF#8 true 0x01#8) { State.reset with qReqSync := [] } = false ∧
      requestSeen (ports false 0xFF#8 true 0x01#8) { State.reset with qReqSync := [] } = true ∧
      clockEdge .pollFirst (ports true 0xFF#8 false 0x00#8) { State.reset with qReqSync := [] } =
        .fault (.uninitialised (.cycle 0)) :=
  ⟨rfl, by decide, rfl, rfl, by decide, by decide, by decide, by decide, rfl⟩

/-- A request up in the chain and not yet acknowledged. -/
def waiting : State :=
  { machine 0x00#8 0xFF#8 0xFF#8 0x00#8 with qReqSync := [true, false], reqPrev := true, reqMask := 0x01#8 }

/-- Each violation on a waiting request (a changed mask, a withdrawal, an INIT once the block sees it), and edges that keep the
mask and that see the request rise. -/
theorem witness_brokenHandshake :
    (waiting.reqPrev = true ∧ waiting.qAck = false ∧ (ports false 0xFF#8 true 0x03#8).qReq = true ∧
      (ports false 0xFF#8 true 0x03#8).qMask ≠ waiting.reqMask) ∧
    (ports false 0xFF#8 false 0x01#8).qReq = false ∧
    ((initPorts 0xFF#8).init = true ∧ requestSeen (initPorts 0xFF#8) { waiting with qReqSync := [true, true] } = true) ∧
    (nextPasses (clockEdge .pollFirst (ports false 0xFF#8 true 0x01#8) waiting) fun t => t.reqMask == 0x01#8) ∧
    (nextPasses (clockEdge .pollFirst (ports false 0xFF#8 true 0x02#8) (machine 0x00#8 0xFF#8 0xFF#8 0x00#8))
      fun t => t.reqMask == 0x02#8) := by decide

/-- An acknowledge still up, its request withdrawn, and a new one raised at once. -/
theorem witness_requestTooEarly :
    (ports false 0xFF#8 true 0x01#8).qReq = true ∧
      { machine 0x00#8 0xFF#8 0xFF#8 0x00#8 with qAck := true, qReqSync := [false, true] }.reqPrev = false ∧
      { machine 0x00#8 0xFF#8 0xFF#8 0x00#8 with qAck := true, qReqSync := [false, true] }.qAck = true := by decide

/-- A request accepted without a tick and with one. -/
theorem witness_accepted :
    handshakeViolated (ports true 0xFE#8 true 0x01#8) (machine 0x00#8 0xFE#8 0xFE#8 0x00#8) = false ∧
      requestSeen (ports true 0xFE#8 true 0x01#8) (machine 0x00#8 0xFE#8 0xFE#8 0x00#8) = true ∧
      (machine 0x00#8 0xFE#8 0xFE#8 0x00#8).qAck = false ∧
      handshakeViolated (ports false 0xFE#8 true 0x01#8) (machine 0x00#8 0xFE#8 0xFE#8 0x00#8) = false := by decide

/-- A release, a hold with the request up, and a hold with it down. -/
theorem witness_releaseAndHold :
    (let s := { machine 0x00#8 0xFF#8 0xFF#8 0x01#8 with qAck := true, reqPrev := true, reqMask := 0x01#8 }
     handshakeViolated (ports false 0xFF#8 false 0x01#8) s = false ∧ requestSeen (ports false 0xFF#8 false 0x01#8) s = false ∧
      handshakeViolated (ports false 0xFF#8 true 0x01#8) s = false ∧ requestSeen (ports false 0xFF#8 true 0x01#8) s = s.qAck) ∧
    (let s := machine 0x00#8 0xFF#8 0xFF#8 0x01#8
     handshakeViolated (ports true 0xFE#8 false 0x00#8) s = false ∧ requestSeen (ports true 0xFE#8 false 0x00#8) s = s.qAck) := by
  decide

/-- A tick in an edge that performs a POLL, and in one that performs INIT. -/
theorem witness_tickKept :
    (nextPasses (clockEdge .pollFirst (ports true 0xFE#8 true 0x01#8) (machine 0x00#8 0xFF#8 0xFF#8 0x00#8)) fun _ => true) ∧
      (nextPasses (clockEdge .pollFirst { initPorts 0xFE#8 with tick := true } (machine 0x00#8 0xFF#8 0xFF#8 0x00#8))
        fun _ => true) := by decide

/-- A requester that holds its request for as many edges as the chain is long, and for more. -/
theorem witness_handshake :
    (let s := { machine 0x00#8 0xFF#8 0xFF#8 0x01#8 with qReqSync := [false, false] }
     s.initialised = true ∧ quietHandshake s ∧ holdsRequest 0x01#8 (List.replicate 2 (ports true 0xFE#8 true 0x01#8)) ∧
      (List.replicate 2 (ports true 0xFE#8 true 0x01#8)).length = s.qReqSync.length ∧
      holdsRequest 0x01#8 (List.replicate 4 (ports true 0xFE#8 true 0x01#8)) ∧
      (List.replicate 4 (ports true 0xFE#8 true 0x01#8)).drop s.qReqSync.length =
        List.replicate 2 (ports true 0xFE#8 true 0x01#8)) := by decide

theorem witness_withdrawn :
    (let s := { machine 0x00#8 0xFF#8 0xFF#8 0x01#8 with qAck := true, reqPrev := true, qReqSync := [true, true] }
     s.initialised = true ∧ acknowledgedHandshake s ∧ holdsNoRequest (List.replicate 3 (ports false 0xFF#8 false 0x01#8)) ∧
      s.qReqSync.length < 3) := by decide

theorem witness_oneRequest :
    oneRequestInFlight waiting ∧
      nextPasses (clockEdge .pollFirst (ports false 0xFF#8 true 0x01#8) waiting) (fun t => t.qReqSync == [true, true]) :=
  ⟨⟨⟨1, 1, rfl⟩, rfl⟩, by decide⟩

theorem witness_heldTick :
    quietHandshake (machine 0x00#8 0xFF#8 0xFF#8 0x00#8) ∧
      ∀ io ∈ List.replicate 4 (ports true 0xFE#8 false 0x00#8), io.init = false ∧ io.tick = true ∧ io.qReq = false := by decide

/-- An edge that toggles channel 0: a foreign reader may see the old bit or the new one. -/
theorem witness_foreignRead :
    (nextPasses (clockEdge .pollFirst (ports true 0xFE#8 false 0x00#8) (machine 0x00#8 0xFE#8 0xFE#8 0x00#8))
      (fun t => t.d == 0x01#8)) ∧
      ∀ i, bit 0x01#8 i = bit 0x00#8 i ∨ bit 0x01#8 i = bit 0x01#8 i := by decide

theorem witness_conserved :
    (∀ op ∈ [Instr.sample 0xFE#8, .poll 0x01#8], isInit op = false) ∧
      nextPasses (runOps [.sample 0xFE#8, .poll 0x01#8] (machine 0x00#8 0xFE#8 0xFE#8 0x00#8))
        (fun t => t.results == [.poll 0x01#8]) := by decide

/-- Pins that change at the time of tick 1 and hold, whatever `TICK_PERIOD` is. -/
theorem witness_toggleDelay :
    tickTime 0 0 < tickTime 0 1 ∧ tickTime 0 1 ≤ tickTime 0 (0 + 1) ∧
      (∀ time, time < tickTime 0 1 →
        bit (if time < tickTime 0 1 then 0xFF#8 else 0xFE#8) 0 = bit (if 0 < tickTime 0 1 then 0xFF#8 else 0xFE#8) 0) ∧
      (∀ time, tickTime 0 1 ≤ time →
        bit (if time < tickTime 0 1 then 0xFF#8 else 0xFE#8) 0 = !bit (if 0 < tickTime 0 1 then 0xFF#8 else 0xFE#8) 0) := by
  have hpos : 0 < tickTime 0 1 := by simp [tickTime, Config.tickPeriod]
  have hbit : bit 0xFE#8 0 = !bit 0xFF#8 0 := by decide
  refine ⟨by simpa [tickTime] using hpos, le_refl _, fun time h => by simp [h, hpos], fun time h => ?_⟩
  have h' : ¬time < tickTime 0 1 := by omega
  simp [h', hpos, hbit]

theorem witness_pseudoInstructions : 0xFE ≤ 255 ∧ 1 ≤ 5 := by decide

theorem witness_assembled :
    assemble [.hold 0xFE 2, .pressCh 7] = some [0x20FE#16, 0x20FE#16, 0x3080#16] ∧
      assembleLine (.init 255) = some [0x10FF#16] ∧ AsmLine.poll 256 ∈ [AsmLine.poll 256] ∧ 255 < 256 := by decide

/-- A run of three disagreeing SAMPLEs that the step's fourth completes, and a step that ends it. -/
theorem witness_counterOfTheRun :
    counterValue 0 (machine 0x00#8 0xFE#8 0xFE#8 0x00#8) = 3 - 3 % 4 ∧
      nextPasses (step ((machine 0x00#8 0xFE#8 0xFE#8 0x00#8).withFetchWord 16 0x20FE)) (fun t => bit t.d 0) ∧
      runAfterStep 0 3 ((machine 0x00#8 0xFE#8 0xFE#8 0x00#8).withFetchWord 16 0x20FE) = 3 + 1 ∧
      nextPasses (step ((machine 0x00#8 0xFE#8 0xFE#8 0x00#8).withFetchWord 16 0x20FF)) (fun t => !bit t.d 0) := by decide

/-- A request up for two cycles, not yet acknowledged, and the edge between them; the next cycle changes the mask, withdraws the
request, or asserts `init` when the block sees the request. -/
theorem witness_portViolations :
    oneRequestInFlight waiting ∧
      clockEdge .pollFirst (ports false 0xFF#8 true 0x01#8) waiting =
        .next { waiting with qReqSync := [true, true], cycle := 1 } ∧
      { waiting with qReqSync := [true, true], cycle := 1 }.initialised = true ∧
      { waiting with qReqSync := [true, true], cycle := 1 }.qAck = false ∧ (0x03#8 : Word) ≠ 0x01#8 ∧
      requestSeen (initPorts 0xFF#8) { waiting with qReqSync := [true, true], cycle := 1 } = true :=
  ⟨⟨⟨1, 1, rfl⟩, rfl⟩, rfl, rfl, rfl, by decide, rfl⟩

theorem witness_sound : State.reset.Inv ∧ step State.reset = .next State.reset :=
  ⟨⟨by simp [State.reset], fun _ => ⟨rfl, rfl, rfl⟩⟩, rfl⟩

end Sys2Proof.Tests
end

/-! ## INIT: what it answers, as one record update -/

namespace Sys2Proof.Machine

/-- INIT performs its transition in every state, with no check of its own (42_startup_init.md R150). -/
theorem exec_init (r : Word) (s : State) : exec (.init r) s = .next (initTransition r s) := rfl

/-- The fields this record update does not name, the synchronizer among them, are those INIT leaves alone (10_state.md R28,
R32). -/
theorem initTransition_eq_resetValues (r : Word) (s : State) :
    initTransition r s =
      { s with d := ~~~r, p := 0x00#8, ca := 0xFF#8, cb := 0xFF#8, qAck := false, qMatched := 0x00#8,
               initialised := true } := rfl

/-- Settles O7: INIT answers its transition, whose record update is the one of R32. -/
theorem initLeavesTheResetValues : Obligations.InitLeavesTheResetValues := by
  intro r s
  rw [exec_init, initTransition_eq_resetValues]

end Sys2Proof.Machine

/-! ## The clock edge: what it performs, order by order -/

namespace Sys2Proof.Machine

section SampleTick

variable (io : Ports) (s : State)

/-- An edge's tick by itself: SAMPLE `raw_in` where `tick` = 1 (20_memory.md R58). -/
def sampleTick : State := if io.tick then sampleTransition io.rawIn s else s

theorem sampleTick_of_tick {io : Ports} (ht : io.tick = true) : sampleTick io s = sampleTransition io.rawIn s := by
  simp [sampleTick, ht]

theorem sampleTick_of_noTick {io : Ports} (ht : io.tick = false) : sampleTick io s = s := by
  simp [sampleTick, ht]

@[simp] theorem sampleTick_qAck : (sampleTick io s).qAck = s.qAck := by unfold sampleTick; split <;> rfl
@[simp] theorem sampleTick_qMatched : (sampleTick io s).qMatched = s.qMatched := by unfold sampleTick; split <;> rfl
@[simp] theorem sampleTick_results : (sampleTick io s).results = s.results := by unfold sampleTick; split <;> rfl

/-- A tick only adds to `P` (40_sampler.md R106). -/
theorem bit_sampleTick_p_of_pending {i : Channel} (hp : bit s.p i = true) : bit (sampleTick io s).p i = true := by
  unfold sampleTick
  split
  · simp [bit_sampleTransition_p, hp]
  · exact hp

end SampleTick

section PollThroughHandshake

variable (io : Ports) (m : Word) (s : State)

@[simp] theorem pollThroughHandshake_d : (pollThroughHandshake m s).d = s.d := rfl
@[simp] theorem pollThroughHandshake_p : (pollThroughHandshake m s).p = acknowledge s.p (matchedWord m s.p) := rfl
@[simp] theorem pollThroughHandshake_ca : (pollThroughHandshake m s).ca = s.ca := rfl
@[simp] theorem pollThroughHandshake_cb : (pollThroughHandshake m s).cb = s.cb := rfl
@[simp] theorem pollThroughHandshake_qAck : (pollThroughHandshake m s).qAck = true := rfl
@[simp] theorem pollThroughHandshake_qMatched : (pollThroughHandshake m s).qMatched = matchedWord m s.p := rfl
@[simp] theorem pollThroughHandshake_results :
    (pollThroughHandshake m s).results = s.results ++ [.poll (matchedWord m s.p)] := rfl

/-! A tick after a POLL moves the levels as it would without it: SAMPLE's level formulas do not read `P` (40_sampler.md R101 to
R105). -/

@[simp] theorem sampleTick_pollThroughHandshake_d :
    (sampleTick io (pollThroughHandshake m s)).d = (sampleTick io s).d := by unfold sampleTick; split <;> rfl
@[simp] theorem sampleTick_pollThroughHandshake_ca :
    (sampleTick io (pollThroughHandshake m s)).ca = (sampleTick io s).ca := by unfold sampleTick; split <;> rfl
@[simp] theorem sampleTick_pollThroughHandshake_cb :
    (sampleTick io (pollThroughHandshake m s)).cb = (sampleTick io s).cb := by unfold sampleTick; split <;> rfl

end PollThroughHandshake

/-- Clearing the reported bits by exclusive or is the masking R46 writes. -/
theorem acknowledge_matchedWord (m p : Word) : acknowledge p (matchedWord m p) = p &&& ~~~(m &&& p) := by
  apply word_ext
  intro i
  simp only [bit_acknowledge_matched, bit_and, bit_not]
  cases bit p i <;> simp

/-! ### The edge that accepts a request, and the edge that does not -/

section PerformEdge

variable {order : SameCycleOrder} {io : Ports} {s : State}

theorem acceptsQuery_of_seen (hq : requestSeen io s = true) (ha : s.qAck = false) : acceptsQuery io s = true := by
  simp [acceptsQuery, hq, ha]

theorem acceptsQuery_eq_false (h : requestSeen io s = true → s.qAck = true) : acceptsQuery io s = false := by
  simpa [acceptsQuery] using h

theorem performEdge_sampleFirst (ha : acceptsQuery io s = true) :
    performEdge .sampleFirst io s = pollThroughHandshake io.qMask (sampleTick io s) := by
  unfold performEdge sampleTick
  split_ifs <;> rfl

theorem performEdge_pollFirst (ha : acceptsQuery io s = true) :
    performEdge .pollFirst io s = sampleTick io (pollThroughHandshake io.qMask s) := by
  unfold performEdge sampleTick
  split_ifs <;> rfl

theorem performEdge_declines (ha : acceptsQuery io s = false) :
    performEdge order io s = if releasesAck io s then lowerAck (sampleTick io s) else sampleTick io s := by
  simp [performEdge, sampleTick, ha]

/-- The levels after an edge with `init` = 0 are those of its tick, whatever the query does (20_memory.md R49). -/
theorem performEdge_levels (order : SameCycleOrder) (io : Ports) (s : State) :
    (performEdge order io s).d = (sampleTick io s).d ∧ (performEdge order io s).ca = (sampleTick io s).ca ∧
      (performEdge order io s).cb = (sampleTick io s).cb := by
  cases ha : acceptsQuery io s with
  | true =>
    cases order with
    | sampleFirst => simp [performEdge_sampleFirst ha]
    | pollFirst => simp [performEdge_pollFirst ha]
  | false =>
    rw [performEdge_declines ha]
    split <;> simp

/-- The `P` that the POLL of an edge reads: after the edge's tick, or before it (20_memory.md R46). -/
def pendingPolled : SameCycleOrder → Ports → State → Word
  | .sampleFirst, io, s => (sampleTick io s).p
  | .pollFirst, _, s => s.p

theorem pendingPolled_of_noTick (ht : io.tick = false) : pendingPolled order io s = s.p := by
  cases order <;> simp [pendingPolled, sampleTick_of_noTick s ht]

theorem pendingPolled_eq_or (order : SameCycleOrder) (io : Ports) (s : State) :
    pendingPolled order io s = s.p ∨ pendingPolled order io s = (sampleTick io s).p := by
  cases order with
  | sampleFirst => exact .inr rfl
  | pollFirst => exact .inl rfl

/-- Accepting a request (20_memory.md R51): one POLL, its result on `q_matched`, and the acknowledge raised. -/
theorem performEdge_accepts (order : SameCycleOrder) (ha : acceptsQuery io s = true) :
    (performEdge order io s).qAck = true ∧
      (performEdge order io s).qMatched = matchedWord io.qMask (pendingPolled order io s) ∧
      (performEdge order io s).results = s.results ++ [.poll (matchedWord io.qMask (pendingPolled order io s))] := by
  cases order with
  | sampleFirst => simp [performEdge_sampleFirst ha, pendingPolled]
  | pollFirst => simp [performEdge_pollFirst ha, pendingPolled]

/-- With no tick the POLL of an accepting edge is all it does to `P`, in either order. -/
theorem performEdge_accepts_p_of_noTick (order : SameCycleOrder) (ha : acceptsQuery io s = true) (ht : io.tick = false) :
    (performEdge order io s).p = acknowledge s.p (matchedWord io.qMask s.p) := by
  cases order with
  | sampleFirst => simp [performEdge_sampleFirst ha, sampleTick_of_noTick _ ht]
  | pollFirst => simp [performEdge_pollFirst ha, sampleTick_of_noTick _ ht]

/-- Releasing and holding (20_memory.md R52, R53): `P` is the tick's, and the acknowledge stays only while the request is seen. -/
theorem performEdge_declines_fields (order : SameCycleOrder) (ha : acceptsQuery io s = false) :
    (performEdge order io s).p = (sampleTick io s).p ∧
      (performEdge order io s).qAck = (s.qAck && requestSeen io s) ∧
      (performEdge order io s).qMatched = s.qMatched ∧ (performEdge order io s).results = s.results := by
  rw [performEdge_declines ha]
  cases hq : requestSeen io s <;> cases hk : s.qAck <;> simp [releasesAck, hq, hk]

end PerformEdge

/-! ## A SAMPLE and a POLL at one edge -/

/-- Settles O39: the accepting edge's fields, with the `P` its POLL reads named by `pendingPolled`. -/
theorem acceptedRequestPerformsOnePoll : Obligations.AcceptedRequestPerformsOnePoll := by
  intro order io s hs hv hi hq hk
  have ha := acceptsQuery_of_seen hq hk
  obtain ⟨hd, hca, hcb⟩ := performEdge_levels order io s
  obtain ⟨hack, hm, hres⟩ := performEdge_accepts order ha
  refine ⟨_, clockEdge_performs hv hi hs, hack, by simp [hres, hm], ?mask, ?noTick, ?tick⟩
  case mask =>
    intro i hb
    simp only [sampleRequest_qMatched, hm, bit_matchedWord, Bool.and_eq_true] at hb
    exact hb.1
  case noTick =>
    intro ht
    rw [sampleTick_of_noTick s ht] at hd hca hcb
    rw [pendingPolled_of_noTick ht] at hm
    exact ⟨hm, performEdge_accepts_p_of_noTick order ha ht, hd, hca, hcb⟩
  case tick =>
    intro ht
    refine ⟨_, exec_of_initialised hs _, ?_⟩
    rw [sampleRequest_qMatched, hm]
    have hp := pendingPolled_eq_or order io s
    rw [sampleTick_of_tick s ht] at hp
    exact hp.imp (congrArg _) (congrArg _)

/-- Settles O40: the fields of an edge that accepts nothing, and a tick's `P` only grows. -/
theorem releaseAndHoldPerformNoPoll : Obligations.ReleaseAndHoldPerformNoPoll := by
  intro order io s hs hv hi hq
  obtain ⟨hd, hca, hcb⟩ := performEdge_levels order io s
  obtain ⟨hp, hack, hm, hres⟩ := performEdge_declines_fields order (acceptsQuery_eq_false hq)
  refine ⟨_, clockEdge_performs hv hi hs, hm, hres, ?release, ?hold, ?pending, ?noTick⟩
  case release =>
    intro hseen _
    simp [hack, hseen]
  case hold =>
    intro hseen
    simp [hack, hseen]
  case pending =>
    intro i hpend
    rw [sampleRequest_p, hp]
    exact bit_sampleTick_p_of_pending io s hpend
  case noTick =>
    intro ht
    rw [sampleTick_of_noTick s ht] at hd hca hcb hp
    exact ⟨hd, hp, hca, hcb⟩

/-- Settles O41: each order is the composition of the tick and the POLL, and the reported bits leave `P` by R46's masking. -/
theorem sameCycleOrderIsASerialization : Obligations.SameCycleOrderIsASerialization := by
  intro io s hs hv hi hq hk ht
  have ha := acceptsQuery_of_seen hq hk
  refine ⟨⟨_, clockEdge_performs hv hi hs, ?_⟩, ⟨_, clockEdge_performs hv hi hs, ?_⟩⟩
  · rw [performEdge_sampleFirst ha, sampleTick_of_tick _ ht]
    exact ⟨rfl, rfl, acknowledge_matchedWord io.qMask _⟩
  · rw [performEdge_pollFirst ha, sampleTick_of_tick _ ht]
    exact ⟨rfl, rfl, congrArg (· ||| _) (acknowledge_matchedWord io.qMask s.p)⟩

/-- Settles O42: the levels after an edge are its tick's or its INIT's, and an edge with a tick that answers has been
initialised. -/
theorem pollNeverDropsATick : Obligations.PollNeverDropsATick := by
  intro order io s t h ht
  obtain ⟨-, ⟨hi, rfl⟩ | ⟨hi, hready, rfl⟩⟩ := clockEdge_next h
  · exact ⟨by simp [hi], fun _ => ⟨_, exec_init io.rawIn s, rfl, rfl, rfl⟩⟩
  · refine ⟨fun _ => ?_, by simp [hi]⟩
    have hs : s.initialised = true := hready.resolve_right (by simp [ht])
    have hlevels := performEdge_levels order io s
    rw [sampleTick_of_tick s ht] at hlevels
    exact ⟨_, exec_of_initialised hs _, hlevels⟩

end Sys2Proof.Machine

/-! ## The opcode map: its match and mask terms as conditions on the fields -/

namespace Sys2Proof

section CommandFields

variable (w x : CommandWord) (op : BitVec 4) (v : Word)

/-! A field of a masked word is the field masked. -/

theorem zField_and : zField (w &&& x) = zField w &&& zField x := BitVec.extractLsb'_and

theorem opField_and : opField (w &&& x) = opField w &&& opField x := BitVec.extractLsb'_and

theorem vField_and : vField (w &&& x) = vField w &&& vField x := BitVec.extractLsb'_and

/-! The mask 0xFF00 of R82 keeps `op` and `z` and clears `v`. -/

theorem zField_and_rowMask : zField (w &&& 0xFF00#16) = zField w := by
  rw [zField_and, show zField 0xFF00#16 = BitVec.allOnes 4 from rfl, BitVec.and_allOnes]

theorem opField_and_rowMask : opField (w &&& 0xFF00#16) = opField w := by
  rw [opField_and, show opField 0xFF00#16 = BitVec.allOnes 4 from rfl, BitVec.and_allOnes]

theorem vField_and_rowMask : vField (w &&& 0xFF00#16) = 0x00#8 := by
  rw [vField_and, show vField 0xFF00#16 = 0x00#8 from rfl, BitVec.and_zero]

/-- The packed word of `op` and `v` is the one word with these fields and `z` = 0000. -/
theorem eq_packCommand_iff : w = packCommand op v ↔ zField w = 0#4 ∧ opField w = op ∧ vField w = v := by
  constructor
  · rintro rfl
    simp
  · rintro ⟨hz, rfl, rfl⟩
    exact (packCommand_fields hz).symm

/-- A match term of R82 under the mask 0xFF00 names a selector and leaves the operand free. -/
theorem and_rowMask_eq_packCommand_iff :
    w &&& 0xFF00#16 = packCommand op 0x00#8 ↔ zField w = 0#4 ∧ opField w = op := by
  simp [eq_packCommand_iff, zField_and_rowMask, opField_and_rowMask, vField_and_rowMask]

end CommandFields

section OpcodeRows

variable (w : CommandWord)

theorem initRow_iff : w &&& 0xFF00#16 = 0x1000#16 ↔ zField w = 0#4 ∧ opField w = 0b0001#4 :=
  and_rowMask_eq_packCommand_iff w 0b0001#4

theorem sampleRow_iff : w &&& 0xFF00#16 = 0x2000#16 ↔ zField w = 0#4 ∧ opField w = 0b0010#4 :=
  and_rowMask_eq_packCommand_iff w 0b0010#4

theorem pollRow_iff : w &&& 0xFF00#16 = 0x3000#16 ↔ zField w = 0#4 ∧ opField w = 0b0011#4 :=
  and_rowMask_eq_packCommand_iff w 0b0011#4

theorem readRow_iff : w = 0x4000#16 ↔ zField w = 0#4 ∧ opField w = 0b0100#4 ∧ vField w = 0x00#8 :=
  eq_packCommand_iff w 0b0100#4 0x00#8

end OpcodeRows

/-- Settles O4: the four rows as conditions on the fields, under which the map's tests are the decoder's. -/
theorem opcodeMapDecodesEveryWord : Obligations.OpcodeMapDecodesEveryWord := by
  intro w
  simp only [initRow_iff, sampleRow_iff, pollRow_iff, readRow_iff]
  by_cases hz : zField w = 0#4
  · simp only [decode, hz, ne_eq, not_true_eq_false, if_false, true_and]
    split_ifs <;> rfl
  · simp [decode, hz]

/-- A word outside the four rows spells no operation (30_encoding.md R84). -/
theorem decode_of_illFormed {w : CommandWord} (h : commandWellFormed w = false) :
    decode w = .error .reservedEncoding := by
  simp only [commandWellFormed, Bool.or_eq_false_iff, beq_eq_false_iff_ne] at h
  obtain ⟨⟨⟨hinit, hsample⟩, hpoll⟩, hread⟩ := h
  rw [opcodeMapDecodesEveryWord w, if_neg hinit, if_neg hsample, if_neg hpoll, if_neg hread]

end Sys2Proof

/-! ## A reserved word at the head of the stream -/

namespace Sys2Proof.Machine

theorem runCommand_of_illFormed {w : CommandWord} (h : commandWellFormed w = false) (s : State) :
    runCommand w s = .refused .reservedEncoding := by
  simp [runCommand, decode_of_illFormed h]

theorem step_of_command {s : State} {w : CommandWord} {rest : List Input} (h : s.inputs = .command w :: rest) :
    step s = runCommand w (withInputs rest s) := by
  simp [step, runInput, h]

/-- A refused step refuses the run, however long (60_exceptions.md R165). -/
theorem runSteps_of_step_refused {s : State} {r : Refusal} (h : step s = .refused r) (k : Nat) :
    runSteps (k + 1) s = .refused r := by
  simp [runSteps, h]

/-- Settles O5: the first step refuses the word, and the run ends there. -/
theorem reservedWordIsRefusedForTheRun : Obligations.ReservedWordIsRefusedForTheRun := by
  intro s w rest hin hw
  apply runSteps_of_step_refused
  rw [step_of_command hin, runCommand_of_illFormed hw]

/-! ## The pseudo-instructions -/

theorem assembleLine_of_wellFormed {l : AsmLine} (h : asmWellFormed l = true) :
    assembleLine l = some ((expandLine l).map encode) := by
  simp [assembleLine, h]

/-- The mask of PRESSCH `c` selects channel `c` alone (30_encoding.md R87). -/
theorem bit_one_shiftLeft (c i : Channel) : bit (1#8 <<< c.val) i = true ↔ i = c := by
  have htwoPow : bit (1#8 <<< c.val) i = (decide (c.val < 8) && decide (c.val = i.val)) :=
    BitVec.getLsbD_twoPow c.val i.val
  simp [htwoPow, ← Fin.ext_iff, eq_comm]

/-- Settles O51: each line's numbers are in range, so it assembles to the words of its expansion. -/
theorem pseudoInstructionsExpand : Obligations.PseudoInstructionsExpand := by
  refine ⟨rfl, ?hold, ?pressCh⟩
  case hold =>
    intro v k hv hk
    refine ⟨encode (.sample (BitVec.ofNat 8 v)), ?_, ?_⟩
    · have hwf : asmWellFormed (.sample v) = true := by simpa [asmWellFormed, isByteLiteral] using hv
      exact assembleLine_of_wellFormed hwf
    · have hwf : asmWellFormed (.hold v k) = true := by simp [asmWellFormed, isByteLiteral, isHoldCount, hv, hk]
      rw [assembleLine_of_wellFormed hwf, expandLine, List.map_replicate]
  case pressCh =>
    intro c
    have hwf : asmWellFormed (.pressCh c.val) = true := by simp [asmWellFormed, isChannelNumber]; omega
    exact ⟨1#8 <<< c.val, assembleLine_of_wellFormed hwf, bit_one_shiftLeft c⟩

end Sys2Proof.Machine

/-! ## The six steps of SAMPLE -/

namespace Sys2Proof.Machine

/-- Step 5 on one channel: `D` flips exactly where `settled_change` is 1 (40_sampler.md R105). -/
theorem bit_toggledState (d settled : Word) (i : Channel) :
    bit (toggledState d settled) i = if bit settled i then !bit d i else bit d i := by
  rw [toggledState, bit_xor]
  cases bit settled i <;> simp

/-- Settles O12: after an INIT SAMPLE is its transition, which is the six formulas; steps 1 and 5 are read channel by channel. -/
theorem sampleComputesTheSixSteps : Obligations.SampleComputesTheSixSteps := by
  intro r s hs changed ca cb settled d
  refine ⟨exec_of_initialised hs (.sample r), ?disagrees, ?flips⟩
  case disagrees =>
    intro i
    have hchanged : bit changed i = (bit s.d i == bit r i) := bit_changedWord i s.d r
    rw [hchanged, beq_iff_eq]
  case flips => exact bit_toggledState s.d settled

end Sys2Proof.Machine

/-! ## POLL: what it reports, what it clears, and what makes a press pending again -/

namespace Sys2Proof.Machine

/-- After an INIT POLL performs its transition, whatever the mask (41_query_ack.md R135). -/
theorem exec_poll {s : State} (hs : s.initialised = true) (mask : Word) :
    exec (.poll mask) s = .next (pollTransition mask s) := exec_of_initialised hs (.poll mask)

/-- The fields this record update does not name are those POLL leaves alone (41_query_ack.md R136). -/
theorem pollTransition_eq (mask : Word) (s : State) :
    pollTransition mask s =
      { s with p := s.p ^^^ (mask &&& s.p), results := s.results ++ [.poll (mask &&& s.p)] } := rfl

/-- Settles O22: POLL answers its transition, and a bit of the conjunction is both its bits. -/
theorem pollReturnsAndClearsItsPresses : Obligations.PollReturnsAndClearsItsPresses := by
  intro mask s hs
  refine ⟨?answer, fun i => ?reported⟩
  case answer => rw [exec_poll hs, pollTransition_eq]
  case reported => rw [bit_and, Bool.and_eq_true]

/-- Settles O23: where the mask is 0, the reported bit is 0 and the bit left in `P` is the old one. -/
theorem pollLeavesBitsOutsideItsMask : Obligations.PollLeavesBitsOutsideItsMask := by
  intro mask s hs
  refine ⟨_, _, exec_poll hs mask, pollTransition_results s mask, fun i hmask => ⟨?reported, ?kept⟩⟩
  case reported => simp [hmask]
  case kept => simp [hmask]

/-! ### Exactly once -/

/-- A SAMPLE that makes a press pending toggles its channel from 0 to 1 (40_sampler.md R106, R114). -/
theorem sampleTransition_toggles_of_press {i : Channel} {r : Word} {s : State} (hclear : bit s.p i = false)
    (hset : bit (sampleTransition r s).p i = true) :
    bit s.d i = false ∧ bit (sampleTransition r s).d i = true := by
  simp only [bit_sampleTransition_p, hclear, Bool.false_or, Bool.and_eq_true, Bool.not_eq_true'] at hset
  obtain ⟨⟨⟨hd, hr⟩, hca⟩, hcb⟩ := hset
  exact ⟨hd, by simp [bit_sampleTransition_d, hd, hr, hca, hcb]⟩

/-- Only a SAMPLE that toggles the channel from 0 to 1 makes a press pending: INIT and POLL only clear bits of `P`, and READ
leaves it (40_sampler.md R114; 41_query_ack.md R134). -/
theorem exec_sets_press {i : Channel} {op : Instr} {s t : State} (h : exec op s = .next t) (hclear : bit s.p i = false)
    (hset : bit t.p i = true) : (∃ r, op = .sample r) ∧ bit s.d i = false ∧ bit t.d i = true := by
  obtain ⟨rfl, -⟩ := exec_next h
  cases op with
  | init r => simp [transition] at hset
  | sample r => exact ⟨⟨r, rfl⟩, sampleTransition_toggles_of_press hclear hset⟩
  | poll m => simp [transition, hclear] at hset
  | read => simp [transition, readTransition_eq, hclear] at hset

/-- No operation takes an INIT back (10_state.md R29). -/
theorem transition_initialised {s : State} (hs : s.initialised = true) (op : Instr) :
    (transition op s).initialised = true := by
  cases op <;> simp [transition, readTransition_eq, hs]

/-- After an INIT the first operation of a serialization is its transition (20_memory.md R45). -/
theorem runOps_cons {s : State} (hs : s.initialised = true) (op : Instr) (ops : List Instr) :
    runOps (op :: ops) s = runOps ops (transition op s) := by
  rw [runOps, exec_of_initialised hs]

/-- A full POLL reports all of `P` (41_query_ack.md R130). -/
theorem matchedWord_full (p : Word) : matchedWord 0xFF#8 p = p := word_ext fun i => by simp

/-- A full POLL leaves nothing pending (41_query_ack.md R130). -/
theorem pollTransition_full_p (s : State) : (pollTransition 0xFF#8 s).p = 0x00#8 :=
  word_ext fun i => by simp

/-- Two full POLLs in a row report all of `P` and then 0 (41_query_ack.md R134). -/
theorem results_pollTransition_full_twice (s : State) :
    (pollTransition 0xFF#8 (pollTransition 0xFF#8 s)).results = s.results ++ [.poll s.p, .poll 0x00#8] := by
  rw [pollTransition_results, pollTransition_results, matchedWord_full, matchedWord_full, pollTransition_full_p,
    List.append_assoc, List.singleton_append]

/-- Settles O24: POLL leaves no bit of its mask, any step that sets one is a toggling SAMPLE whatever went before it, and the
second of two full POLLs reads a `P` of 0. -/
theorem pollReportsEachPressOnce : Obligations.PollReportsEachPressOnce := by
  intro mask s hs
  refine ⟨_, exec_poll hs mask, ?cleared, ?setAgain, ?twice⟩
  case cleared =>
    intro i hmask
    simp [hmask]
  case setAgain =>
    intro i ops op u v _ _ hclear hexec hset
    exact exec_sets_press hexec hclear hset
  case twice =>
    refine ⟨_, ?_, results_pollTransition_full_twice s⟩
    rw [runOps_cons hs, runOps_cons (transition_initialised hs _)]
    rfl

end Sys2Proof.Machine

/-! ## The edge with `init` = 1 -/

namespace Sys2Proof.Machine

section InitEdge

variable {order : SameCycleOrder} {io : Ports} {s : State}

/-- A broken handshake is recorded before anything else an edge could do (60_exceptions.md R169). -/
theorem clockEdge_of_violated (hv : handshakeViolated io s = true) :
    clockEdge order io s = .fault (.handshakeViolation (.cycle s.cycle)) := by
  rw [clockEdge, if_pos hv]

/-- Where no handshake is broken, INIT takes the cycle and a tick in it is dropped (42_startup_init.md R152). -/
theorem clockEdge_init (hv : handshakeViolated io s = false) (hi : io.init = true) :
    clockEdge order io s = .next (sampleRequest io (initTransition io.rawIn s)) := by
  rw [clockEdge, if_neg (Bool.eq_false_iff.mp hv), if_pos hi]

/-- `init` = 1 breaks the handshake while the block sees a request or still acknowledges one (42_startup_init.md R153). -/
theorem handshakeViolated_of_initDuringQuery (hi : io.init = true) (hq : requestSeen io s = true ∨ s.qAck = true) :
    handshakeViolated io s = true := by
  have hduring : initDuringQuery io s = true := by
    rw [initDuringQuery, hi, Bool.true_and, Bool.or_eq_true]
    exact hq
  simp [handshakeViolated, hduring]

end InitEdge

/-- Settles O8: INIT during a query is one of the violations, which come first, and any other edge with `init` = 1 is INIT's
transition, whose record update is the one of R32. -/
theorem initCyclePerformsInitAlone : Obligations.InitCyclePerformsInitAlone := by
  intro order io s hi
  refine ⟨fun hq => ?duringQuery, fun hv => ?initAlone⟩
  case duringQuery => exact clockEdge_of_violated (handshakeViolated_of_initDuringQuery hi hq)
  case initAlone => rw [clockEdge_init hv hi, initTransition_eq_resetValues]

end Sys2Proof.Machine

/-! ## Before the first INIT: which operations and which edges fault -/

namespace Sys2Proof.Machine

/-- An operation that is INIT performs its transition in every state (42_startup_init.md R150). -/
theorem exec_of_isInit {op : Instr} (hop : isInit op = true) (s : State) : exec op s = .next (transition op s) := by
  cases op with
  | init r => exact exec_init r s
  | sample | poll | read => cases hop

/-- Before the first INIT every other operation faults at itself (60_exceptions.md R163). -/
theorem exec_of_uninitialised {op : Instr} {s : State} (hop : isInit op = false) (hs : s.initialised = false) :
    exec op s = .fault (.uninitialised (.operation op)) := by
  cases op with
  | init => cases hop
  | sample | poll | read => simp [exec, execSample, execPoll, execRead, whenInitialised_of_false hs]

/-- UNINITIALISED is the one fault an operation can raise, and it raises it exactly before the first INIT. -/
theorem exec_fault_iff (op : Instr) (s : State) (f : Fault) :
    exec op s = .fault f ↔
      isInit op = false ∧ s.initialised = false ∧ f = .uninitialised (.operation op) := by
  cases hop : isInit op with
  | true => simp [exec_of_isInit hop]
  | false =>
    cases hs : s.initialised with
    | true => simp [exec_of_initialised hs]
    | false => simp [exec_of_uninitialised hop hs, eq_comm]

/-- Before the first INIT an edge that breaks no handshake and has an operation to perform other than INIT faults at its cycle
(60_exceptions.md R163, R169). -/
theorem clockEdge_of_uninitialised {order : SameCycleOrder} {io : Ports} {s : State} (hv : handshakeViolated io s = false)
    (hi : io.init = false) (hs : s.initialised = false) (hperforms : (io.tick || acceptsQuery io s) = true) :
    clockEdge order io s = .fault (.uninitialised (.cycle s.cycle)) := by
  simp [clockEdge, hv, hi, hs, hperforms]

/-- Settles O30: the fault of an operation is `exec_fault_iff`; an edge's tick is a SAMPLE to perform, and a request seen and not
acknowledged is a POLL to perform. -/
theorem operationFaultsExactlyBeforeInit : Obligations.OperationFaultsExactlyBeforeInit := by
  refine ⟨exec_fault_iff, ?edge⟩
  case edge =>
    rintro order io s hv hi hs (ht | ⟨hq, hk⟩)
    · exact clockEdge_of_uninitialised hv hi hs (by simp [ht])
    · exact clockEdge_of_uninitialised hv hi hs (by simp [acceptsQuery_of_seen hq hk])

end Sys2Proof.Machine

/-! ## Decoding and encoding are each other's inverse -/

namespace Sys2Proof

/-- The decoder's tests on a packed word see its selector and its operand (30_encoding.md R83). -/
theorem decode_packCommand (op : BitVec 4) (v : Word) :
    decode (packCommand op v) =
      if op = 0b0001#4 then .ok (.init v)
      else if op = 0b0010#4 then .ok (.sample v)
      else if op = 0b0011#4 then .ok (.poll v)
      else if op = 0b0100#4 ∧ v = 0x00#8 then .ok .read
      else .error .reservedEncoding := by
  simp [decode]

theorem decode_encode (i : Instr) : decode (encode i) = .ok i := by
  cases i with
  | init r => exact decode_packCommand 0b0001#4 r
  | sample r => exact decode_packCommand 0b0010#4 r
  | poll mask => exact decode_packCommand 0b0011#4 mask
  | read => exact decode_packCommand 0b0100#4 0x00#8

/-- Settles O2: each operation's word is packed from its selector, by which the decoder tells it from the others. -/
theorem decodeOfEncodeIsTheOperation : Obligations.DecodeOfEncodeIsTheOperation :=
  fun i _ => decode_encode i

/-- A word that decodes has `z` = 0000, so it is packed from its fields (30_encoding.md R83). -/
theorem zField_of_decode_ok {w : CommandWord} {i : Instr} (h : decode w = .ok i) : zField w = 0#4 := by
  by_contra hz
  simp [decode, hz] at h

/-- Settles O3: the word is packed from its fields, and each selector the decoder accepts is the one its operation is encoded
with. -/
theorem encodeOfDecodeIsTheWord : Obligations.EncodeOfDecodeIsTheWord := by
  intro w i h
  have hw := packCommand_fields (zField_of_decode_ok h)
  rw [← hw, decode_packCommand] at h
  refine Eq.trans ?_ hw
  split_ifs at h with hinit hsample hpoll hread
  · cases h; rw [hinit]; rfl
  · cases h; rw [hsample]; rfl
  · cases h; rw [hpoll]; rfl
  · cases h; rw [hread.1, hread.2]; rfl

/-- Settles O1: closed words, each decoded by computation. -/
theorem specWordsDecode : Obligations.SpecWordsDecode := by
  unfold Obligations.SpecWordsDecode
  decide

end Sys2Proof

/-! ## What one step can do -/

namespace Sys2Proof.Machine

section StepByInput

variable {s : State} {rest : List Input}

theorem step_of_noInput (h : s.inputs = []) : step s = .next s := by simp [step, runNothing, h]

theorem step_of_edge {io : Ports} (h : s.inputs = .edge io :: rest) :
    step s = clockEdge (Config.sameCycleOrder s.cycle) io (withInputs rest s) := by
  simp [step, runInput, runEdge, h]

theorem step_of_edgeForeignRead {io : Ports} (h : s.inputs = .edgeForeignRead io :: rest) :
    step s =
      foreignReadEdge (Config.sameCycleOrder s.cycle) (Config.foreignPick s.cycle) io (withInputs rest s) := by
  simp [step, runInput, runForeignReadEdge, h]

theorem runCommand_of_decode {w : CommandWord} {op : Instr} (h : decode w = .ok op) (s : State) :
    runCommand w s = exec op s := by
  simp [runCommand, h]

theorem runCommand_of_reserved {w : CommandWord} {e : Rejection} (h : decode w = .error e) (s : State) :
    runCommand w s = .refused .reservedEncoding := by
  cases e
  simp [runCommand, h]

end StepByInput

/-- Settles O6: one equation of `step` per kind of input. -/
theorem stepRunsTheDecodedOperation : Obligations.StepRunsTheDecodedOperation := by
  intro s rest
  refine ⟨fun w i h hdec _ => ?command, fun io => step_of_edge, fun io => step_of_edgeForeignRead, step_of_noInput⟩
  case command =>
    rw [step_of_command h, runCommand_of_decode hdec]
    rfl

/-- Everything a step can do where it answers a next state: it waits, performs the operation of a command word, or performs a
clock edge, after which a foreign reader that rides on it adds its own output (10_state.md section 8). -/
theorem step_next {s t : State} (h : step s = .next t) :
    (s.inputs = [] ∧ t = s) ∨
    (∃ w op rest, s.inputs = .command w :: rest ∧ decode w = .ok op ∧ exec op (withInputs rest s) = .next t) ∨
    (∃ io rest, s.inputs = .edge io :: rest ∧
      clockEdge (Config.sameCycleOrder s.cycle) io (withInputs rest s) = .next t) ∨
    (∃ io rest u seen, s.inputs = .edgeForeignRead io :: rest ∧ s.initialised = true ∧
      clockEdge (Config.sameCycleOrder s.cycle) io (withInputs rest s) = .next u ∧
      t = record (.foreignRead seen) u) := by
  match hin : s.inputs with
  | [] =>
    rw [step_of_noInput hin] at h
    cases h
    exact .inl ⟨rfl, rfl⟩
  | .command w :: rest =>
    rw [step_of_command hin] at h
    cases hdec : decode w with
    | ok op => exact .inr (.inl ⟨w, op, rest, rfl, hdec, by rwa [runCommand_of_decode hdec] at h⟩)
    | error e => rw [runCommand_of_reserved hdec] at h; cases h
  | .edge io :: rest =>
    rw [step_of_edge hin] at h
    exact .inr (.inr (.inl ⟨io, rest, rfl, h⟩))
  | .edgeForeignRead io :: rest =>
    rw [step_of_edgeForeignRead hin] at h
    obtain ⟨hs, u, hu, rfl⟩ := foreignReadEdge_next h
    exact .inr (.inr (.inr ⟨io, rest, u, _, rfl, hs, hu, rfl⟩))

/-! ### Faults -/

/-- The faults of a clock edge: a broken handshake, or an operation to perform before the first INIT (60_exceptions.md R169). -/
theorem clockEdge_fault {order : SameCycleOrder} {io : Ports} {s : State} {f : Fault}
    (h : clockEdge order io s = .fault f) :
    (handshakeViolated io s = true ∧ f = .handshakeViolation (.cycle s.cycle)) ∨
      (io.init = false ∧ s.initialised = false ∧ (io.tick = true ∨ acceptsQuery io s = true) ∧
        f = .uninitialised (.cycle s.cycle)) := by
  unfold clockEdge at h
  split_ifs at h with hv hi hu
  · cases h
    exact .inl ⟨hv, rfl⟩
  · cases h
    simp only [Bool.and_eq_true, Bool.or_eq_true, Bool.not_eq_true'] at hu
    obtain ⟨hs, hperforms⟩ := hu
    exact .inr ⟨by simpa using hi, hs, hperforms, rfl⟩

/-- A foreign read adds no fault to those of its edge but UNINITIALISED before the first INIT (log entry 7). -/
theorem foreignReadEdge_fault {order : SameCycleOrder} {pick : Word} {io : Ports} {s : State} {f : Fault}
    (h : foreignReadEdge order pick io s = .fault f) :
    f = .handshakeViolation (.cycle s.cycle) ∨ (s.initialised = false ∧ f = .uninitialised (.cycle s.cycle)) := by
  unfold foreignReadEdge at h
  split at h
  next =>
    split_ifs at h with hs
    cases h
    exact .inr ⟨by simpa using hs, rfl⟩
  next hedge =>
    cases h
    exact (clockEdge_fault hedge).imp And.right fun ⟨_, hs, _, hf⟩ => ⟨hs, hf⟩
  next => cases h

/-- Every fault of a step is one of the two kinds, and UNINITIALISED arises only before the first INIT (60_exceptions.md R163,
R164). -/
theorem step_fault {s : State} {f : Fault} (h : step s = .fault f) :
    (∃ site, f = .handshakeViolation site) ∨ (s.initialised = false ∧ ∃ site, f = .uninitialised site) := by
  match hin : s.inputs with
  | [] => rw [step_of_noInput hin] at h; cases h
  | .command w :: rest =>
    rw [step_of_command hin] at h
    cases hdec : decode w with
    | ok op =>
      rw [runCommand_of_decode hdec, exec_fault_iff] at h
      obtain ⟨-, hs, rfl⟩ := h
      exact .inr ⟨hs, _, rfl⟩
    | error e => rw [runCommand_of_reserved hdec] at h; cases h
  | .edge io :: rest =>
    rw [step_of_edge hin] at h
    exact (clockEdge_fault h).imp (fun ⟨_, hf⟩ => ⟨_, hf⟩) fun ⟨_, hs, _, hf⟩ => ⟨hs, _, hf⟩
  | .edgeForeignRead io :: rest =>
    rw [step_of_edgeForeignRead hin] at h
    exact (foreignReadEdge_fault h).imp (fun hf => ⟨_, hf⟩) fun ⟨hs, hf⟩ => ⟨hs, _, hf⟩

/-- Settles O33: REENTRY is neither kind of fault a step can answer. -/
theorem reentryNeverArises : Obligations.ReentryNeverArises := by
  intro s site h
  obtain ⟨_, hf⟩ | ⟨-, _, hf⟩ := step_fault h <;> cases hf

/-! ### The ghost flag -/

/-- An operation that answers a next state leaves the machine initialised: it was, or the operation is INIT. -/
theorem exec_next_initialised {op : Instr} {s t : State} (h : exec op s = .next t) : t.initialised = true := by
  obtain ⟨rfl, hs | ⟨r, rfl⟩⟩ := exec_next h
  · exact transition_initialised hs op
  · rfl

/-- No clock edge takes an INIT back (10_state.md R29). -/
theorem clockEdge_next_initialised {order : SameCycleOrder} {io : Ports} {s t : State} (hs : s.initialised = true)
    (h : clockEdge order io s = .next t) : t.initialised = true := by
  obtain ⟨-, ⟨-, rfl⟩ | ⟨-, -, rfl⟩⟩ := clockEdge_next h
  · rfl
  · obtain ⟨-, -, -, -, -, hinit⟩ := performEdge_frame order io s
    exact hinit.trans hs

/-- Settles O34: each input's next state keeps the flag, and UNINITIALISED is a fault of uninitialised states only. -/
theorem initialisedMachineStaysInitialised : Obligations.InitialisedMachineStaysInitialised := by
  intro s hs
  refine ⟨fun t h => ?keeps, fun site h => ?noFault⟩
  case keeps =>
    obtain ⟨-, rfl⟩ | ⟨w, op, rest, -, -, hexec⟩ | ⟨io, rest, -, hedge⟩ | ⟨io, rest, u, seen, -, -, hedge, rfl⟩ :=
      step_next h
    · exact hs
    · exact exec_next_initialised hexec
    · exact clockEdge_next_initialised (s := withInputs rest s) hs hedge
    · exact (record_initialised u _).trans (clockEdge_next_initialised (s := withInputs rest s) hs hedge)
  case noFault =>
    obtain ⟨_, hf⟩ | ⟨hu, -⟩ := step_fault h
    · cases hf
    · simp [hs] at hu

/-- Settles O31: every operation performs its transition after an INIT, and INIT performs it in every state. -/
theorem operationsAreTotalAfterInit : Obligations.OperationsAreTotalAfterInit := by
  rintro op s (hs | hop)
  · exact ⟨_, exec_of_initialised hs op, transition_initialised hs op⟩
  · have h := exec_of_isInit hop s
    exact ⟨_, h, exec_next_initialised h⟩

end Sys2Proof.Machine

/-! ## What every edge that answers leaves of the request -/

namespace Sys2Proof.Machine

section HandshakeViolated

variable {io : Ports} {s : State}

/-- The four ways to break the handshake (20_memory.md R56; 70_reset_and_hazards.md R190). -/
theorem handshakeViolated_iff (io : Ports) (s : State) :
    handshakeViolated io s = true ↔
      (io.qReq = true ∧ s.reqPrev = true ∧ s.qAck = false ∧ io.qMask ≠ s.reqMask) ∨
      (io.qReq = false ∧ s.reqPrev = true ∧ s.qAck = false) ∨
      (io.init = true ∧ (requestSeen io s = true ∨ s.qAck = true)) ∨
      (io.qReq = true ∧ s.reqPrev = false ∧ s.qAck = true) := by
  simp [handshakeViolated, maskChanged, requestWithdrawn, initDuringQuery, requestTooEarly, requestRises, and_assoc,
    or_assoc]

theorem acceptsQuery_iff (io : Ports) (s : State) :
    acceptsQuery io s = true ↔ requestSeen io s = true ∧ s.qAck = false := by
  simp [acceptsQuery]

/-- While the acknowledge has not followed the last request level, a requester that breaks no handshake keeps that level
(20_memory.md R54). -/
theorem qReq_of_unanswered (hv : handshakeViolated io s = false) (h : s.reqPrev = !s.qAck) : io.qReq = s.reqPrev := by
  by_contra hne
  have hviolated : handshakeViolated io s = true := by
    rw [handshakeViolated_iff]
    cases hk : s.qAck with
    | true => exact .inr (.inr (.inr ⟨by simpa [h, hk] using hne, by simp [h, hk], rfl⟩))
    | false => exact .inr (.inl ⟨by simpa [h, hk] using hne, by simp [h, hk], rfl⟩)
  simp [hv] at hviolated

end HandshakeViolated

/-- After the operations of an edge the acknowledge is the request level the block saw (20_memory.md R51, R52, R53). -/
theorem performEdge_qAck (order : SameCycleOrder) (io : Ports) (s : State) :
    (performEdge order io s).qAck = requestSeen io s := by
  cases ha : acceptsQuery io s with
  | true =>
    obtain ⟨hack, -, -⟩ := performEdge_accepts order ha
    rw [hack, ((acceptsQuery_iff io s).mp ha).1]
  | false =>
    obtain ⟨-, hack, -, -⟩ := performEdge_declines_fields order ha
    rw [hack]
    cases hq : requestSeen io s with
    | true => simpa [acceptsQuery, hq] using ha
    | false => simp

/-- What an edge that answers samples of the request, whatever it performs: the acknowledge follows the level the block saw, the
chain shifts, and the record and the edge count move on (20_memory.md R50, R56, R58). -/
theorem clockEdge_next_request {order : SameCycleOrder} {io : Ports} {s t : State} (h : clockEdge order io s = .next t) :
    t.qAck = requestSeen io s ∧ t.qReqSync = shiftRequest io.qReq s.qReqSync ∧ t.reqPrev = io.qReq ∧
      t.reqMask = (if requestRises io s then io.qMask else s.reqMask) ∧ t.cycle = s.cycle + 1 := by
  obtain ⟨hv, ⟨hi, rfl⟩ | ⟨-, -, rfl⟩⟩ := clockEdge_next h
  · refine ⟨?_, rfl, rfl, rfl, rfl⟩
    by_contra hseen
    have hviolated := handshakeViolated_of_initDuringQuery (s := s) hi (.inl (by simpa using hseen))
    simp [hv] at hviolated
  · obtain ⟨hsync, hprev, hmask, hcycle, -, -⟩ := performEdge_frame order io s
    exact ⟨performEdge_qAck order io s, by simp [hsync], rfl, by simp [hmask, requestRises, hprev], by simp [hcycle]⟩

/-- Where no handshake is broken, an edge answers if it performs INIT, if an INIT has been performed, or if it has nothing to
perform (60_exceptions.md R163). -/
theorem clockEdge_answers {order : SameCycleOrder} {io : Ports} {s : State} (hv : handshakeViolated io s = false)
    (hready : io.init = true ∨ s.initialised = true ∨ (io.tick = false ∧ acceptsQuery io s = false)) :
    ∃ t, clockEdge order io s = .next t := by
  cases hi : io.init with
  | true => exact ⟨_, clockEdge_init hv hi⟩
  | false =>
    obtain hs | ⟨ht, ha⟩ := hready.resolve_left (by simp [hi])
    · exact ⟨_, clockEdge_performs hv hi hs⟩
    · exact ⟨sampleRequest io (performEdge order io s), by simp [clockEdge, hv, hi, ht, ha]⟩

/-- Settles O36: the four cases, and the branches of the edge in their order. -/
theorem edgeFaultsInTheSpecsOrder : Obligations.EdgeFaultsInTheSpecsOrder := by
  intro order io s
  refine ⟨handshakeViolated_iff io s, clockEdge_of_violated, fun hv => ⟨fun h => ?faulted, ?faults⟩,
    fun hv hready => ?answers⟩
  case faulted =>
    obtain ⟨-, hf⟩ | ⟨hi, hs, hperforms, -⟩ := clockEdge_fault h
    · cases hf
    · exact ⟨hi, hs, by rwa [acceptsQuery_iff] at hperforms⟩
  case faults =>
    rintro ⟨hi, hs, hperforms⟩
    exact clockEdge_of_uninitialised hv hi hs (by simpa [acceptsQuery_iff] using hperforms)
  case answers =>
    rw [← acceptsQuery_iff, Bool.not_eq_true] at hready
    obtain ⟨t, ht⟩ := clockEdge_answers (order := order) hv hready
    obtain ⟨-, -, -, -, hcycle⟩ := clockEdge_next_request ht
    exact ⟨t, ht, hcycle⟩

/-- Settles O37: three of the four cases, and the record that every edge leaves. -/
theorem brokenHandshakeFaults : Obligations.BrokenHandshakeFaults := by
  intro order io s
  refine ⟨fun hq hp hk hm => ?mask, fun hq hp hk => ?withdrawn, fun hi hq => ?init, fun t h => ?record⟩
  case mask => exact clockEdge_of_violated ((handshakeViolated_iff io s).mpr (.inl ⟨hq, hp, hk, hm⟩))
  case withdrawn => exact clockEdge_of_violated ((handshakeViolated_iff io s).mpr (.inr (.inl ⟨hq, hp, hk⟩)))
  case init => exact clockEdge_of_violated (handshakeViolated_of_initDuringQuery hi hq)
  case record =>
    obtain ⟨-, -, hprev, hmask, -⟩ := clockEdge_next_request h
    refine ⟨hprev, fun hq hp => ?_, fun hq hp => ?_⟩ <;> simp [hmask, requestRises, hq, hp]

/-- Settles O38: the fourth case. -/
theorem requestBeforeReleaseFaults : Obligations.RequestBeforeReleaseFaults :=
  fun _ io s hq hp hk => clockEdge_of_violated ((handshakeViolated_iff io s).mpr (.inr (.inr (.inr ⟨hq, hp, hk⟩))))

/-! ### One request in flight -/

/-- A level that the block does not see yet and that the requester keeps moves one flip-flop on; a level fed into a chain that
holds only the acknowledged one becomes the new request (20_memory.md R50). -/
theorem shiftRequest_runs_of_kept {q k : Bool} {a : Nat} (b : Nat) (hkeep : 0 < a → q = !k) :
    ∃ a' b', shiftRequest q (List.replicate a (!k) ++ List.replicate (b + 1) k) =
      List.replicate a' (!k) ++ List.replicate b' k := by
  rw [shiftRequest_runs]
  by_cases hq : q = !k
  · exact ⟨a + 1, b, by rw [hq, List.replicate_succ, List.cons_append]⟩
  · have ha : a = 0 := by
      by_contra hne
      exact hq (hkeep (Nat.pos_of_ne_zero hne))
    have hqk : q = k := by simpa using hq
    exact ⟨0, b + 1, by simp [ha, hqk, List.replicate_succ]⟩

/-- The newest level in the chain is the one just sampled, and with no chain it is the one the block saw (20_memory.md R50). -/
theorem head?_shiftRequest (io : Ports) (s : State) :
    ((shiftRequest io.qReq s.qReqSync).head?).getD (requestSeen io s) = io.qReq := by
  cases hchain : s.qReqSync with
  | nil => simp [requestSeen_nil hchain]
  | cons b rest => simp [shiftRequest_cons]

/-- Settles O46: the chain holds `a` unanswered levels before `b` answered ones. While an answered one is left at the end, the
acknowledge stays and the chain takes in one level; when none is left, all of it is answered at this edge. -/
theorem edgeKeepsOneRequestInFlight : Obligations.EdgeKeepsOneRequestInFlight := by
  rintro order io s t ⟨⟨a, b, hchain⟩, hprev⟩ h
  obtain ⟨hv, -⟩ := clockEdge_next h
  obtain ⟨hack, hsync, hlast, -, -⟩ := clockEdge_next_request h
  refine ⟨?levels, ?newest⟩
  case newest => rw [hlast, hsync, hack, head?_shiftRequest]
  case levels =>
    have hkeep : 0 < a → io.qReq = !s.qAck := by
      intro ha
      have hunanswered : s.reqPrev = !s.qAck := by
        obtain ⟨a, rfl⟩ := Nat.exists_eq_succ_of_ne_zero ha.ne'
        simp [hprev, hchain, List.replicate_succ]
      rw [qReq_of_unanswered hv hunanswered, hunanswered]
    rw [hsync, hack]
    match a, b with
    | a, b + 1 =>
      rw [requestSeen_runs hchain, hchain]
      exact shiftRequest_runs_of_kept b hkeep
    | 0, 0 => exact ⟨0, 0, by simp [hchain]⟩
    | a + 1, 0 =>
      have hall : s.qReqSync = List.replicate 0 (!s.qAck) ++ List.replicate (a + 1) (!s.qAck) := by simpa using hchain
      rw [requestSeen_runs hall, hall, shiftRequest_runs, hkeep (Nat.succ_pos a)]
      exact ⟨0, a + 1, by simp [List.replicate_succ]⟩

/-- Once the acknowledge has followed the last request level, and the requester keeps that level, the block sees it: nothing else
is in flight (20_memory.md R54). -/
theorem requestSeen_of_answered {io : Ports} {s : State} (h : oneRequestInFlight s) (hprev : s.reqPrev = s.qAck)
    (hq : io.qReq = s.qAck) : requestSeen io s = s.qAck := by
  obtain ⟨⟨a, b, hchain⟩, hnewest⟩ := h
  match a, b with
  | 0, 0 => rw [requestSeen_nil (by simpa using hchain), hq]
  | a, b + 1 => exact requestSeen_runs hchain
  | a + 1, 0 => simp [hnewest, hchain, List.replicate_succ] at hprev

/-- Settles O56: an edge that leaves a request unanswered leaves its mask in the record, whether the request rose at it or waited
from before; a request that was answered before it is seen, so its acknowledge stays. -/
theorem violationsShowOnThePorts : Obligations.ViolationsShowOnThePorts := by
  intro order order' before now s t hflight _ h
  obtain ⟨hv, -⟩ := clockEdge_next h
  obtain ⟨hack, -, hlast, hmask, -⟩ := clockEdge_next_request h
  refine ⟨fun hq hk hnow hm => ?mask, fun hq hk hnow => ?withdrawn, fun hi hq => ?init⟩
  case withdrawn =>
    exact clockEdge_of_violated ((handshakeViolated_iff now t).mpr (.inr (.inl ⟨hnow, hlast.trans hq, hk⟩)))
  case init => exact clockEdge_of_violated (handshakeViolated_of_initDuringQuery hi hq)
  case mask =>
    have hrecord : t.reqMask = before.qMask := by
      cases hp : s.reqPrev with
      | false => simp [hmask, requestRises, hq, hp]
      | true =>
        have hks : s.qAck = false := by
          by_contra hks
          have hks : s.qAck = true := by simpa using hks
          have hseen := requestSeen_of_answered hflight (hp.trans hks.symm) (hq.trans hks.symm)
          simp [← hack, hk, hks] at hseen
        by_contra hne
        have hne : before.qMask ≠ s.reqMask := by simpa [hmask, requestRises, hq, hp, eq_comm] using hne
        have hviolated := (handshakeViolated_iff before s).mpr (.inl ⟨hq, hp, hks, hne⟩)
        simp [hv] at hviolated
    refine clockEdge_of_violated ((handshakeViolated_iff now t).mpr (.inl ⟨hnow, hlast.trans hq, hk, ?_⟩))
    rwa [hrecord]

/-! ### The machine's invariant -/

/-- Settles O54: every flip-flop and the acknowledge are 0 at power-up, and nothing is given out. -/
theorem powerUpIsSound : Obligations.PowerUpIsSound := by
  refine ⟨⟨?length, fun _ => ⟨rfl, rfl, rfl⟩⟩, ⟨rfl, rfl, ?quiet⟩, ⟨⟨0, Config.syncStages.depth, rfl⟩, ?newest⟩⟩
  case length => simp [State.reset]
  case quiet => simp [State.reset]
  case newest => cases h : Config.syncStages.depth <;> simp [State.reset, h, List.replicate_succ]

/-- The operations that an answering edge can perform before the first INIT give nothing out and acknowledge nothing
(60_exceptions.md R163). -/
theorem performEdge_sound_of_idle {order : SameCycleOrder} {io : Ports} {s : State} (ht : io.tick = false)
    (ha : acceptsQuery io s = false) (hres : s.results = []) (hk : s.qAck = false) (hm : s.qMatched = 0x00#8) :
    (performEdge order io s).results = [] ∧ (performEdge order io s).qAck = false ∧
      (performEdge order io s).qMatched = 0x00#8 := by
  rw [performEdge_idle ht ha]
  split <;> simp [hres, hk, hm]

theorem clockEdge_next_sound {order : SameCycleOrder} {io : Ports} {s t : State} (hinv : s.Inv)
    (h : clockEdge order io s = .next t) : t.Inv := by
  obtain ⟨hlen, hbefore⟩ := hinv
  obtain ⟨-, hsync, -, -, -⟩ := clockEdge_next_request h
  refine ⟨by rw [hsync, length_shiftRequest, hlen], fun hu => ?_⟩
  have hs : s.initialised = false := by
    by_contra hs
    simp [clockEdge_next_initialised (by simpa using hs) h] at hu
  obtain ⟨-, ⟨-, rfl⟩ | ⟨-, hready, rfl⟩⟩ := clockEdge_next h
  · cases hu
  · obtain ⟨ht, ha⟩ := hready.resolve_left (by simp [hs])
    obtain ⟨hres, hk, hm⟩ := hbefore hs
    exact performEdge_sound_of_idle ht ha hres hk hm

/-! ### The frame of an operation -/

/-- What no operation touches (10_state.md section 6). -/
theorem transition_frame (op : Instr) (s : State) :
    (transition op s).qReqSync = s.qReqSync ∧ (transition op s).reqPrev = s.reqPrev ∧
      (transition op s).reqMask = s.reqMask ∧ (transition op s).cycle = s.cycle ∧
      (transition op s).inputs = s.inputs := by
  cases op <;> exact ⟨rfl, rfl, rfl, rfl, rfl⟩

/-- Settles O53: no operation touches the chain and each leaves the machine initialised; an edge shifts the chain, and before the
first INIT it only lowers the acknowledge; a foreign read rides only on an initialised machine. -/
theorem stepKeepsTheMachineSound : Obligations.StepKeepsTheMachineSound := by
  intro s t hinv h
  have hinv' : ∀ rest, (withInputs rest s).Inv := fun _ => hinv
  obtain ⟨-, rfl⟩ | ⟨w, op, rest, -, -, hexec⟩ | ⟨io, rest, -, hedge⟩ | ⟨io, rest, u, seen, -, hs, hedge, rfl⟩ :=
    step_next h
  · exact hinv
  · refine ⟨?_, fun hu => by simp [exec_next_initialised hexec] at hu⟩
    obtain ⟨rfl, -⟩ := exec_next hexec
    obtain ⟨hsync, -⟩ := transition_frame op (withInputs rest s)
    obtain ⟨hlen, -⟩ := hinv
    rwa [hsync]
  · exact clockEdge_next_sound (hinv' rest) hedge
  · obtain ⟨hlen, -⟩ := clockEdge_next_sound (hinv' rest) hedge
    have hu : u.initialised = true := clockEdge_next_initialised (s := withInputs rest s) hs hedge
    exact ⟨hlen, fun hfalse => by simp [hu] at hfalse⟩

/-- Settles O28: each operation's transition writes only what its row of the access table allows. -/
theorem operationsKeepWhatTheyMayNotWrite : Obligations.OperationsKeepWhatTheyMayNotWrite := by
  intro op s t h
  obtain ⟨rfl, -⟩ := exec_next h
  obtain ⟨hsync, hprev, hmask, hcycle, hinputs⟩ := transition_frame op s
  refine ⟨hsync, hprev, hmask, hcycle, hinputs, ?_⟩
  cases op with
  | init r => exact ⟨nofun, nofun, fun _ => rfl, nofun⟩
  | sample r => exact ⟨fun _ => ⟨rfl, rfl, rfl⟩, nofun, fun _ => rfl, nofun⟩
  | poll m => exact ⟨fun _ => ⟨rfl, rfl, rfl⟩, fun _ => ⟨rfl, rfl, rfl⟩, fun hne => absurd rfl hne, nofun⟩
  | read => exact ⟨fun _ => ⟨rfl, rfl, rfl⟩, fun _ => ⟨rfl, rfl, rfl⟩, fun hne => absurd rfl hne, fun _ => rfl⟩

/-- Without `init` and `tick` an edge leaves the levels and the counters (20_memory.md R58). -/
theorem clockEdge_next_levels_of_noTick {order : SameCycleOrder} {io : Ports} {s t : State} (hi : io.init = false)
    (ht : io.tick = false) (h : clockEdge order io s = .next t) : t.d = s.d ∧ t.ca = s.ca ∧ t.cb = s.cb := by
  obtain ⟨-, ⟨hinit, -⟩ | ⟨-, -, rfl⟩⟩ := clockEdge_next h
  · simp [hi] at hinit
  · have hlevels := performEdge_levels order io s
    rwa [sampleTick_of_noTick s ht] at hlevels

/-- An edge that moves the levels or the counters has `init` or `tick`. -/
theorem initOrTick_of_clockEdge_moves {order : SameCycleOrder} {io : Ports} {s t : State}
    (h : clockEdge order io s = .next t) (hmoved : t.d ≠ s.d ∨ t.ca ≠ s.ca ∨ t.cb ≠ s.cb) :
    io.init = true ∨ io.tick = true := by
  by_contra hnone
  simp only [not_or, Bool.not_eq_true] at hnone
  obtain ⟨hi, ht⟩ := hnone
  obtain ⟨hd, hca, hcb⟩ := clockEdge_next_levels_of_noTick hi ht h
  simp [hd, hca, hcb] at hmoved

/-- Settles O29: waiting moves nothing, a command word that moves the levels is no POLL or READ, and an edge that moves them has
`init` or `tick`, with a foreign reader or without. -/
theorem onlyInitAndSampleMoveTheLevels : Obligations.OnlyInitAndSampleMoveTheLevels := by
  intro s t h hmoved
  obtain ⟨-, rfl⟩ | ⟨w, op, rest, hin, hdec, hexec⟩ | ⟨io, rest, hin, hedge⟩ | ⟨io, rest, u, seen, hin, -, hedge, rfl⟩ :=
    step_next h
  · simp at hmoved
  · obtain ⟨rfl, -⟩ := exec_next hexec
    refine .inl ⟨w, ?_⟩
    cases op with
    | init r => exact ⟨r, rest, hin, .inl hdec⟩
    | sample r => exact ⟨r, rest, hin, .inr hdec⟩
    | poll m => simp [transition] at hmoved
    | read => simp [transition, readTransition_eq] at hmoved
  · exact .inr ⟨io, rest, .inl hin, initOrTick_of_clockEdge_moves hedge hmoved⟩
  · exact .inr ⟨io, rest, .inr hin, initOrTick_of_clockEdge_moves hedge hmoved⟩

/-! ### Faults of a run, and power-up -/

/-- A faulted step faults the run, however long (60_exceptions.md R162). -/
theorem runSteps_of_step_fault {s : State} {f : Fault} (h : step s = .fault f) (k : Nat) : runSteps (k + 1) s = .fault f := by
  simp [runSteps, h]

/-- A command word of an operation other than INIT faults before the first INIT, whatever stands behind it. -/
theorem step_of_command_of_uninitialised {s : State} {op : Instr} {rest : List Input}
    (hin : s.inputs = .command (encode op) :: rest) (hop : isInit op = false) (hs : s.initialised = false) :
    step s = .fault (.uninitialised (.operation op)) := by
  rw [step_of_command hin, runCommand_of_decode (decode_encode op)]
  exact exec_of_uninitialised hop hs

/-- Settles O32: the first step answers the fault, and the run ends there. -/
theorem faultIsNeverCleared : Obligations.FaultIsNeverCleared := by
  refine ⟨fun s op rest k hs hop hin => ?command, fun s io rest k hv hi hs hperforms hin => ?edge,
    fun s io rest k hv hin => ?handshake, fun site => ⟨rfl, rfl, rfl⟩⟩
  case command => exact runSteps_of_step_fault (step_of_command_of_uninitialised hin hop hs) k
  case edge =>
    refine runSteps_of_step_fault ?_ k
    rw [step_of_edge hin]
    exact operationFaultsExactlyBeforeInit.2 _ io (withInputs rest s) hv hi hs hperforms
  case handshake =>
    refine runSteps_of_step_fault ?_ k
    rw [step_of_edge hin]
    exact clockEdge_of_violated (s := withInputs rest s) hv

/-- A command word placed before the stream through the opcode table is the word itself (30_encoding.md R85). -/
theorem withFetchWord_encode_inputs (s : State) (op : Instr) :
    (s.withFetchWord 16 (encode op).toNat).inputs = .command (encode op) :: s.inputs := by
  have hword : tableCommandWord 16 (encode op).toNat = encode op := by
    rw [tableCommandWord, Nat.mod_eq_of_lt (encode op).isLt, BitVec.ofNat_toNat, BitVec.setWidth_eq]
  simp [State.withFetchWord, pushCommand, hword]

/-- Settles O35: the empty stream waits; a word placed there runs if it is an INIT and else faults. -/
theorem powerUpAwaitsInit : Obligations.PowerUpAwaitsInit := by
  refine ⟨rfl, rfl, rfl, step_of_noInput rfl, fun i => ⟨?init, fun hop => ?fault⟩⟩
  case init =>
    rintro r rfl
    rw [step_of_command (withFetchWord_encode_inputs _ _), runCommand_of_decode (decode_encode _)]
    exact ⟨_, exec_init r _, rfl, rfl⟩
  case fault => exact step_of_command_of_uninitialised (withFetchWord_encode_inputs _ _) hop rfl

end Sys2Proof.Machine

/-! ## The counter law of one channel -/

namespace Sys2Proof.Machine

section CounterLaw

variable (i : Channel) (r : Word) (s : State)

theorem counterValue_le : counterValue i s ≤ 3 := by
  rw [counterValue]
  cases bit s.ca i <;> cases bit s.cb i <;> decide

theorem counterValue_eq_zero_iff : counterValue i s = 0 ↔ bit s.ca i = false ∧ bit s.cb i = false := by
  rw [counterValue]
  cases bit s.ca i <;> cases bit s.cb i <;> decide

/-- The counter goes to 3 where the channel agrees, and counts down modulo 4 where it disagrees (40_sampler.md R108, R109). -/
theorem counterValue_sampleTransition :
    counterValue i (sampleTransition r s) = if bit s.d i = bit r i then (counterValue i s + 3) % 4 else 3 := by
  simp only [counterValue, bit_sampleTransition_ca, bit_sampleTransition_cb]
  by_cases hdis : bit s.d i = bit r i
  · rw [if_pos hdis, beq_iff_eq.mpr hdis]
    cases bit s.ca i <;> cases bit s.cb i <;> rfl
  · rw [if_neg hdis, beq_eq_false_iff_ne.mpr hdis]
    cases bit s.ca i <;> cases bit s.cb i <;> rfl

/-- The level flips exactly where the channel disagrees with its counter at 0 (40_sampler.md R108). -/
theorem bit_sampleTransition_d_of_counter :
    bit (sampleTransition r s).d i =
      if bit s.d i = bit r i ∧ counterValue i s = 0 then !bit s.d i else bit s.d i := by
  simp only [bit_sampleTransition_d, counterValue_eq_zero_iff]
  cases bit s.d i <;> cases bit r i <;> cases bit s.ca i <;> cases bit s.cb i <;> rfl

theorem bit_sampleTransition_d_ne_iff :
    bit (sampleTransition r s).d i ≠ bit s.d i ↔ bit s.d i = bit r i ∧ counterValue i s = 0 := by
  rw [bit_sampleTransition_d_of_counter]
  split
  next hflips => exact iff_of_true (Bool.not_ne_self _) hflips
  next hkeeps => exact iff_of_false (not_not_intro rfl) hkeeps

/-- A press becomes pending exactly where a released channel flips (40_sampler.md R109). -/
theorem bit_sampleTransition_p_of_counter :
    bit (sampleTransition r s).p i =
      if bit s.d i = bit r i ∧ counterValue i s = 0 then bit s.p i || !bit s.d i else bit s.p i := by
  simp only [bit_sampleTransition_p, counterValue_eq_zero_iff]
  cases bit s.d i <;> cases bit r i <;> cases bit s.ca i <;> cases bit s.cb i <;> simp

/-- An agreeing SAMPLE settles the counter and moves neither the level nor the pending bit (40_sampler.md R108). -/
theorem sampleTransition_of_agrees {i : Channel} {r : Word} {s : State} (h : bit s.d i ≠ bit r i) :
    counterValue i (sampleTransition r s) = 3 ∧ bit (sampleTransition r s).d i = bit s.d i ∧
      bit (sampleTransition r s).p i = bit s.p i := by
  simp [counterValue_sampleTransition, bit_sampleTransition_d_of_counter, bit_sampleTransition_p_of_counter, h]

end CounterLaw

/-- Settles O13: the counter law, read in its two cases. -/
theorem counterPairCountsDown : Obligations.CounterPairCountsDown := by
  intro i r s hs
  refine ⟨_, exec_of_initialised hs _, sampleTransition_of_agrees, fun hdis => ?disagrees⟩
  case disagrees =>
    refine ⟨?_, ?_, ?_⟩
    · simp [transition, counterValue_sampleTransition, hdis]
    · rw [transition, bit_sampleTransition_d_ne_iff, and_iff_right hdis]
    · by_cases h0 : counterValue i s = 0 <;> simp [transition, bit_sampleTransition_p_of_counter, hdis, h0]

/-! ### The run of disagreeing SAMPLEs -/

/-- The counter of a channel is 3 less the length modulo 4 of its run `k`, and where the run has just grown to `k`, the level
has flipped exactly at a multiple of 4 (40_sampler.md R110). -/
def followsRun (i : Channel) (k k' : Nat) (s t : State) : Prop :=
  counterValue i t = 3 - k' % 4 ∧ (k' = k + 1 → (bit t.d i ≠ bit s.d i ↔ (k + 1) % 4 = 0))

section FollowsRun

variable {i : Channel} {k : Nat} {s t : State}

/-- A run that has not grown says nothing of the level. -/
theorem followsRun_of_kept (h : counterValue i t = 3 - k % 4) : followsRun i k k s t :=
  ⟨h, fun hgrown => absurd hgrown (Nat.ne_of_lt (Nat.lt_succ_self k))⟩

/-- A run that ended leaves the counter at 3. -/
theorem followsRun_of_ended (h : counterValue i t = 3) : followsRun i k 0 s t :=
  ⟨h, fun hgrown => absurd hgrown.symm (Nat.succ_ne_zero k)⟩

/-- A SAMPLE ends the run where it agrees, and else grows it, counting down (40_sampler.md R110). -/
theorem followsRun_sampleTransition (r : Word) (h : counterValue i s = 3 - k % 4) :
    followsRun i k (runAfterSample i k r s) s (sampleTransition r s) := by
  unfold runAfterSample
  split
  next hdis =>
    rw [beq_iff_eq] at hdis
    refine ⟨?_, fun _ => ?_⟩
    · rw [counterValue_sampleTransition, if_pos hdis, h]
      omega
    · rw [bit_sampleTransition_d_ne_iff, h]
      have harith : 3 - k % 4 = 0 ↔ (k + 1) % 4 = 0 := by omega
      simp [hdis, harith]
  next hagree =>
    rw [beq_iff_eq] at hagree
    obtain ⟨hsettled, -, -⟩ := sampleTransition_of_agrees hagree
    exact followsRun_of_ended hsettled

theorem counterValue_initTransition (i : Channel) (r : Word) (s : State) : counterValue i (initTransition r s) = 3 := by
  simp [counterValue]

theorem followsRun_transition (op : Instr) (h : counterValue i s = 3 - k % 4) :
    followsRun i k (runAfterOp i k s op) s (transition op s) := by
  cases op with
  | init r => exact followsRun_of_ended (counterValue_initTransition i r s)
  | sample r => exact followsRun_sampleTransition r h
  | poll m => exact followsRun_of_kept h
  | read => exact followsRun_of_kept h

/-- The run is about the levels and counters alone. -/
theorem followsRun_congr {k' : Nat} {u : State} (hd : t.d = u.d) (hca : t.ca = u.ca) (hcb : t.cb = u.cb)
    (h : followsRun i k k' s u) : followsRun i k k' s t := by
  simpa [followsRun, counterValue, hd, hca, hcb] using h

/-- An edge follows the run as its INIT or its tick does, for these alone move the levels (20_memory.md R49, R58). -/
theorem followsRun_clockEdge {order : SameCycleOrder} {io : Ports} (h : counterValue i s = 3 - k % 4)
    (hedge : clockEdge order io s = .next t) : followsRun i k (runAfterEdge i k io s) s t := by
  unfold runAfterEdge
  obtain ⟨-, ⟨hi, rfl⟩ | ⟨hi, -, rfl⟩⟩ := clockEdge_next hedge
  · rw [if_pos hi]
    exact followsRun_of_ended (counterValue_initTransition i io.rawIn s)
  · rw [if_neg (by simp [hi])]
    obtain ⟨hd, hca, hcb⟩ := performEdge_levels order io s
    refine followsRun_congr (u := sampleTick io s) hd hca hcb ?_
    cases ht : io.tick with
    | true =>
      rw [sampleTick_of_tick s ht]
      exact followsRun_sampleTransition io.rawIn h
    | false =>
      rw [sampleTick_of_noTick s ht]
      exact followsRun_of_kept h

end FollowsRun

/-- Settles O55: the input a step takes is an operation or an edge, and each follows the run; what a foreign reader sees is no
part of it. -/
theorem stepKeepsTheCounterOfTheRun : Obligations.StepKeepsTheCounterOfTheRun := by
  intro i k s t hk h
  change followsRun i k (runAfterStep i k s) s t
  obtain ⟨hin, rfl⟩ | ⟨w, op, rest, hin, hdec, hexec⟩ | ⟨io, rest, hin, hedge⟩ | ⟨io, rest, u, seen, hin, -, hedge, rfl⟩ :=
    step_next h
  · simp only [runAfterStep, hin]
    exact followsRun_of_kept hk
  · obtain ⟨rfl, -⟩ := exec_next hexec
    simp only [runAfterStep, hin, hdec]
    exact followsRun_transition (s := withInputs rest s) op hk
  · simp only [runAfterStep, hin]
    exact followsRun_clockEdge (s := withInputs rest s) hk hedge
  · simp only [runAfterStep, hin]
    exact followsRun_clockEdge (s := withInputs rest s) (t := u) hk hedge

/-! ### SAMPLEs one after the other -/

/-- The state after the SAMPLEs of a list of raw input words. -/
def afterSamples (rs : List Word) (s : State) : State := rs.foldl (fun s r => sampleTransition r s) s

@[simp] theorem afterSamples_nil (s : State) : afterSamples [] s = s := rfl

@[simp] theorem afterSamples_cons (r : Word) (rs : List Word) (s : State) :
    afterSamples (r :: rs) s = afterSamples rs (sampleTransition r s) := rfl

theorem afterSamples_append (rs rs' : List Word) (s : State) :
    afterSamples (rs ++ rs') s = afterSamples rs' (afterSamples rs s) := List.foldl_append

theorem afterSamples_initialised (rs : List Word) (s : State) : (afterSamples rs s).initialised = s.initialised := by
  induction rs generalizing s with
  | nil => rfl
  | cons r rs ih => exact ih (sampleTransition r s)

/-- After an INIT a list of SAMPLEs performs all of them (60_exceptions.md R160). -/
theorem runOps_samples (rs : List Word) {s : State} (hs : s.initialised = true) :
    runOps (samples rs) s = .next (afterSamples rs s) := by
  induction rs generalizing s with
  | nil => rfl
  | cons r rs ih =>
    rw [samples, List.map_cons, runOps_cons hs]
    exact ih hs

theorem runOps_init_samples (r : Word) (rs : List Word) (s : State) :
    runOps (.init r :: samples rs) s = .next (afterSamples rs (initTransition r s)) :=
  runOps_samples rs rfl

/-- The counter law along a list of SAMPLEs (40_sampler.md R110). -/
theorem counterValue_afterSamples {i : Channel} {k : Nat} (rs : List Word) {s : State} (h : counterValue i s = 3 - k % 4) :
    counterValue i (afterSamples rs s) = 3 - disagreeingRun i k rs s % 4 := by
  induction rs generalizing k s with
  | nil => exact h
  | cons r rs ih =>
    obtain ⟨hr, -⟩ := followsRun_sampleTransition r h
    rw [runAfterSample, ← bit_changedWord] at hr
    exact ih hr

theorem disagrees_iff (i : Channel) (r : Word) (s : State) : disagrees i r s = true ↔ bit s.d i = bit r i := by
  simp [disagrees]

/-- The run after one SAMPLE more (40_sampler.md R110). -/
theorem disagreeingRun_concat (i : Channel) (k : Nat) (rs : List Word) (r : Word) (s : State) :
    disagreeingRun i k (rs ++ [r]) s =
      if disagrees i r (afterSamples rs s) then disagreeingRun i k rs s + 1 else 0 := by
  induction rs generalizing k s with
  | nil => rfl
  | cons r' rs ih => exact ih _ _

/-- Settles O14: the counter law along the SAMPLEs, and the latest flips the level where the counter before it was 0. -/
theorem runLengthFixesTheCounter : Obligations.RunLengthFixesTheCounter := by
  intro i r0 r rs s
  have hb : counterValue i (initTransition r0 s) = 3 := counterValue_initTransition i r0 s
  have hu : (afterSamples rs (initTransition r0 s)).initialised = true := afterSamples_initialised rs _
  refine ⟨_, _, _, exec_init r0 s, runOps_samples rs rfl, exec_of_initialised hu (.sample r), hb, ?counter, ?toggle⟩
  case counter =>
    rw [← counterValue_afterSamples (rs ++ [r]) (k := 0) hb, afterSamples_append]
    rfl
  case toggle =>
    have hcount := counterValue_afterSamples rs (k := 0) hb
    rw [transition, bit_sampleTransition_d_ne_iff, disagreeingRun_concat, hcount]
    split
    next hdis =>
      rw [and_iff_right ((disagrees_iff _ _ _).mp hdis)]
      omega
    next hagree =>
      rw [disagrees_iff] at hagree
      simp [hagree]

/-! ### A raw level that holds -/

section HeldLevel

variable {i : Channel}

/-- Agreeing ticks leave a settled channel as it is (40_sampler.md R116). -/
theorem afterSamples_of_agreeing {rs : List Word} {s : State} (hagree : ∀ x ∈ rs, bit x i ≠ bit s.d i)
    (hsettled : counterValue i s = 3) :
    bit (afterSamples rs s).d i = bit s.d i ∧ counterValue i (afterSamples rs s) = 3 ∧
      bit (afterSamples rs s).p i = bit s.p i := by
  induction rs generalizing s with
  | nil => exact ⟨rfl, hsettled, rfl⟩
  | cons r rs ih =>
    obtain ⟨hr, hrs⟩ := List.forall_mem_cons.mp hagree
    obtain ⟨hn, hd, hp⟩ := sampleTransition_of_agrees hr.symm
    have hnext := ih (s := sampleTransition r s) (by rwa [hd]) hn
    rwa [hd, hp] at hnext

/-- Disagreeing ticks no more than the counter's value count it down and move nothing else (40_sampler.md R118). -/
theorem afterSamples_of_disagreeing {rs : List Word} {s : State} (hdis : ∀ x ∈ rs, bit x i = bit s.d i)
    (hlen : rs.length ≤ counterValue i s) :
    bit (afterSamples rs s).d i = bit s.d i ∧ counterValue i (afterSamples rs s) = counterValue i s - rs.length ∧
      bit (afterSamples rs s).p i = bit s.p i := by
  induction rs generalizing s with
  | nil => exact ⟨rfl, rfl, rfl⟩
  | cons r rs ih =>
    obtain ⟨hr, hrs⟩ := List.forall_mem_cons.mp hdis
    rw [List.length_cons] at hlen
    have hpos : counterValue i s ≠ 0 := by omega
    have hd : bit (sampleTransition r s).d i = bit s.d i := by simp [bit_sampleTransition_d_of_counter, hpos]
    have hp : bit (sampleTransition r s).p i = bit s.p i := by simp [bit_sampleTransition_p_of_counter, hpos]
    have hn : counterValue i (sampleTransition r s) = counterValue i s - 1 := by
      rw [counterValue_sampleTransition, if_pos hr.symm]
      have hle := counterValue_le i s
      omega
    obtain ⟨hd', hn', hp'⟩ := ih (s := sampleTransition r s) (by rwa [hd]) (by omega)
    exact ⟨hd'.trans hd, by rw [afterSamples_cons, hn', hn, List.length_cons]; omega, hp'.trans hp⟩

/-- One more disagreeing tick flips the level and settles the counter, and as many as follow it agree (40_sampler.md R113,
R118). -/
theorem afterSamples_of_heldDisagreeing {rs : List Word} {s : State} (hdis : ∀ x ∈ rs, bit x i = bit s.d i)
    (hlen : counterValue i s < rs.length) :
    bit (afterSamples rs s).d i = !bit s.d i ∧ counterValue i (afterSamples rs s) = 3 ∧
      bit (afterSamples rs s).p i = (bit s.p i || !bit s.d i) := by
  induction rs generalizing s with
  | nil => cases hlen
  | cons r rs ih =>
    obtain ⟨hr, hrs⟩ := List.forall_mem_cons.mp hdis
    rw [List.length_cons] at hlen
    have hd := bit_sampleTransition_d_of_counter i r s
    have hn := counterValue_sampleTransition i r s
    have hp := bit_sampleTransition_p_of_counter i r s
    rw [if_pos hr.symm] at hn
    by_cases h0 : counterValue i s = 0
    · rw [if_pos ⟨hr.symm, h0⟩] at hd hp
      have hnext := afterSamples_of_agreeing (s := sampleTransition r s)
        (fun x hx => by rw [hd, hrs x hx]; exact Bool.self_ne_not _) (by rw [hn, h0])
      rwa [hd, hp] at hnext
    · rw [if_neg (fun h => h0 h.2)] at hd hp
      have hle := counterValue_le i s
      have hnext := ih (s := sampleTransition r s) (by rwa [hd]) (by omega)
      rwa [hd, hp] at hnext

end HeldLevel

/-- Settles O15: at most three disagreeing ticks only count down from 3, and the agreeing one settles the counter. -/
theorem glitchIsRejected : Obligations.GlitchIsRejected := by
  intro i rs r s hs hsettled hlen hdis hagree
  obtain ⟨hd, -, hp⟩ := afterSamples_of_disagreeing hdis (by omega)
  obtain ⟨hn', hd', hp'⟩ := sampleTransition_of_agrees (s := afterSamples rs s) (r := r) (by rw [hd]; exact hagree.symm)
  refine ⟨_, runOps_samples _ hs, ?_⟩
  rw [afterSamples_append]
  exact ⟨hd'.trans hd, hn', hp'.trans hp⟩

/-- Settles O16: up to three ticks count down from 3, and any more hold the level past the one that flips it. -/
theorem confirmationTakesExactlyFourTicks : Obligations.ConfirmationTakesExactlyFourTicks := by
  intro i rs s hs hsettled hdis
  refine ⟨_, runOps_samples rs hs, fun hshort => ?before, fun hlong => ?confirmed⟩
  case before =>
    obtain ⟨hd, -, hp⟩ := afterSamples_of_disagreeing hdis (by omega)
    exact ⟨hd, hp⟩
  case confirmed =>
    obtain ⟨hd, hn, hp⟩ := afterSamples_of_heldDisagreeing hdis (by omega)
    exact ⟨hd, hp, hn⟩

/-- Settles O17: the same two cases from any counter value. -/
theorem toggleComesAfterTheCounterRunsOut : Obligations.ToggleComesAfterTheCounterRunsOut := by
  intro i rs s hs hdis
  refine ⟨_, runOps_samples rs hs, fun hshort => ?before, fun hlong => ?toggled⟩
  case before =>
    obtain ⟨hd, hn, -⟩ := afterSamples_of_disagreeing hdis hshort
    exact ⟨hd, hn⟩
  case toggled =>
    obtain ⟨hd, hn, -⟩ := afterSamples_of_heldDisagreeing hdis (by omega)
    exact ⟨hd, hn⟩

/-- After INIT a channel whose raw level is the one INIT saw agrees (42_startup_init.md R150). -/
theorem ne_bit_initTransition_d {i : Channel} {r x : Word} {s : State} (h : bit x i = bit r i) :
    bit x i ≠ bit (initTransition r s).d i := by
  simp [h]

/-- Settles O18: after INIT the channel is settled, and every tick agrees. -/
theorem stableInputNeverPresses : Obligations.StableInputNeverPresses := by
  intro i r0 rs s hstable
  obtain ⟨hd, hn, hp⟩ := afterSamples_of_agreeing (s := initTransition r0 s)
    (fun x hx => ne_bit_initTransition_d (hstable x hx)) (counterValue_initTransition i r0 s)
  exact ⟨_, runOps_init_samples r0 rs s, by simp [hd], hn, by simp [hp]⟩

/-! ### Time: a tick every `TICK_PERIOD` -/

section TickTime

variable (pins : Nat → Word) (start : Nat)

theorem tickTime_add (m k : Nat) : tickTime start (m + k) = tickTime start m + k * Config.tickPeriod := by
  simp only [tickTime]
  ring

theorem tickTime_mono {k m : Nat} (h : k ≤ m) : tickTime start k ≤ tickTime start m := by
  obtain ⟨j, rfl⟩ := Nat.exists_eq_add_of_le h
  rw [tickTime_add]
  exact Nat.le_add_right _ _

/-- The words that ticks `m + 1` to `m + j` sample. -/
def sampledAfter (m j : Nat) : List Word := (List.range j).map fun k => pins (tickTime start (m + k + 1))

theorem sampledLevels_add (m j : Nat) :
    sampledLevels pins start (m + j) = sampledLevels pins start m ++ sampledAfter pins start m j := by
  simp [sampledLevels, sampledAfter, List.range_add, Function.comp_def]

theorem length_sampledAfter (m j : Nat) : (sampledAfter pins start m j).length = j := by simp [sampledAfter]

variable {pins start} {i : Channel} {change m : Nat}

/-- Ticks up to `m` sample the level the pins start with. -/
theorem bit_of_mem_sampledLevels (hafter : tickTime start m < change)
    (hold : ∀ time, time < change → bit (pins time) i = bit (pins start) i) :
    ∀ x ∈ sampledLevels pins start m, bit x i = bit (pins start) i := by
  simp only [sampledLevels, List.mem_map, List.mem_range]
  rintro _ ⟨k, hk, rfl⟩
  exact hold _ (Nat.lt_of_le_of_lt (tickTime_mono start hk) hafter)

/-- Ticks after `m` sample the level the pins change to. -/
theorem bit_of_mem_sampledAfter (hbefore : change ≤ tickTime start (m + 1))
    (hnew : ∀ time, change ≤ time → bit (pins time) i = !bit (pins start) i) (j : Nat) :
    ∀ x ∈ sampledAfter pins start m j, bit x i = !bit (pins start) i := by
  simp only [sampledAfter, List.mem_map]
  rintro _ ⟨k, -, rfl⟩
  exact hnew _ (hbefore.trans (tickTime_mono start (by omega)))

end TickTime

/-- Settles O50: the ticks up to `m` leave the channel settled at its INIT level, and of those after it the 4th flips it. -/
theorem toggleDelayIsThreeToFourPeriods : Obligations.ToggleDelayIsThreeToFourPeriods := by
  intro i pins start change m n s hafter hbefore hold hnew
  refine ⟨?delay, _, runOps_init_samples _ _ s, ?level⟩
  case delay =>
    rw [tickTime_add] at hbefore ⊢
    omega
  case level =>
    have hinit : bit (initTransition (pins start) s).d i = !bit (pins start) i := by simp
    have hstable : ∀ k ≤ m, bit (afterSamples (sampledLevels pins start k) (initTransition (pins start) s)).d i =
          !bit (pins start) i ∧
        counterValue i (afterSamples (sampledLevels pins start k) (initTransition (pins start) s)) = 3 := by
      intro k hk
      have hsame := bit_of_mem_sampledLevels (m := k) (Nat.lt_of_le_of_lt (tickTime_mono start hk) hafter) hold
      obtain ⟨hd, hn, -⟩ := afterSamples_of_agreeing (s := initTransition (pins start) s)
        (fun x hx => ne_bit_initTransition_d (hsame x hx)) (counterValue_initTransition i _ s)
      exact ⟨hd.trans hinit, hn⟩
    obtain hle | hlt := Nat.le_total n m
    · rw [if_pos (by omega)]
      exact (hstable n hle).1
    · obtain ⟨j, rfl⟩ := Nat.exists_eq_add_of_le hlt
      obtain ⟨hd, hn⟩ := hstable m le_rfl
      rw [sampledLevels_add, afterSamples_append]
      have hdis := bit_of_mem_sampledAfter hbefore hnew j
      rw [← hd] at hdis
      have hlen := length_sampledAfter pins start m j
      split
      next hearly =>
        obtain ⟨hd', -, -⟩ := afterSamples_of_disagreeing hdis (by omega)
        rw [hd', hd]
      next hlate =>
        obtain ⟨hd', -, -⟩ := afterSamples_of_heldDisagreeing hdis (by omega)
        rw [hd', hd, Bool.not_not]

end Sys2Proof.Machine

/-! ## READ, and short runs of operations -/

namespace Sys2Proof.Machine

/-- The fields this record update does not name are those READ leaves alone (41_query_ack.md R140). -/
theorem readTransition_eq_results (s : State) :
    readTransition s = { s with results := s.results ++ [.read s.d] } := rfl

/-- Settles O25: READ answers its transition, and the second reads the same `D`. -/
theorem readReturnsTheDebouncedState : Obligations.ReadReturnsTheDebouncedState := by
  intro s hs
  have hread : exec .read s = .next (readTransition s) := exec_of_initialised hs .read
  refine ⟨hread, ?twice⟩
  case twice =>
    rw [runOps_cons hs, runOps_cons (transition_initialised hs _), runOps]
    simp [transition, readTransition_eq_results]

/-- Settles O9: INIT leaves nothing pending, so the POLL matches nothing, and READ gives INIT's level. -/
theorem bootLatchesNoPress : Obligations.BootLatchesNoPress := by
  intro r mask s
  have hinit : (initTransition r s).initialised = true := rfl
  have hpoll : (pollTransition mask (initTransition r s)).p = 0x00#8 := word_ext fun i => by simp
  refine ⟨readTransition (pollTransition mask (initTransition r s)), ?run, ?results, hpoll⟩
  case run =>
    rw [runOps, exec_init]
    dsimp only
    rw [runOps_cons hinit, runOps_cons (transition_initialised hinit _)]
    rfl
  case results => simp [readTransition_eq, matchedWord]

/-- Settles O20: the run of S9, evaluated. -/
theorem releasedPressIsStillReportedOnce : Obligations.ReleasedPressIsStillReportedOnce :=
  ⟨_, _, runOps_init_samples _ _ _, by decide, by decide, rfl, by decide⟩

/-- Channel 0 released with its counter run out and nothing pending: the next disagreeing SAMPLE confirms a press. -/
def pressDue : State := { State.reset with ca := 0xFE#8, cb := 0xFE#8, initialised := true }

/-- Settles O27: from `pressDue` the SAMPLE of 0xFE confirms a press on channel 0, after the READ and before the POLL. -/
theorem sampleMayFallBetweenReadAndPoll : Obligations.SampleMayFallBetweenReadAndPoll :=
  ⟨0xFE#8, pressDue, _, _, rfl, rfl, rfl, by decide, rfl, by decide⟩

/-! ## The pending bit of one channel -/

/-- Settles O19: `exec_sets_press`; a SAMPLE that flips a released channel latches its press; and of the four operations only
INIT, and POLL where its mask is 1, clear a bit. -/
theorem pendingBitFollowsPressesAndPolls : Obligations.PendingBitFollowsPressesAndPolls := by
  intro i op s t h
  refine ⟨exec_sets_press h, ?latches, fun hset hclear => ?falls⟩
  case latches =>
    rintro r rfl hd hd'
    obtain ⟨rfl, -⟩ := exec_next h
    rw [transition] at hd' ⊢
    have hflips := (bit_sampleTransition_d_ne_iff i r s).mp (by simp [hd, hd'])
    rw [bit_sampleTransition_p_of_counter, if_pos hflips, hd, Bool.not_false, Bool.or_true]
  case falls =>
    obtain ⟨rfl, -⟩ := exec_next h
    cases op with
    | init r => exact .inl ⟨r, rfl⟩
    | sample r => simp [transition, bit_sampleTransition_p, hset] at hclear
    | poll mask => exact .inr ⟨mask, rfl, by simpa [transition, hset] using hclear⟩
    | read => simp [transition, readTransition_eq, hset] at hclear

/-! ### Conservation of presses -/

/-- 1 where `P[i]` rises (20_memory.md R59). -/
def pressRise (i : Channel) (s t : State) : Nat := if !bit s.p i && bit t.p i then 1 else 0

theorem pressReports_of_results {i : Channel} {s t : State} {r : Result} (h : t.results = s.results ++ [r]) :
    pressReports i t = pressReports i s + (reportsPress i r).toNat := by
  rw [pressReports, h, List.countP_append, List.countP_singleton]
  cases reportsPress i r <;> rfl

/-- One operation other than INIT: a press that leaves `P[i]` is reported, and one that enters it is a rise. -/
theorem transition_conserves_presses (i : Channel) {op : Instr} (hop : isInit op = false) (s : State) :
    pressReports i (transition op s) + (bit (transition op s).p i).toNat =
      pressReports i s + (bit s.p i).toNat + pressRise i s (transition op s) := by
  cases op with
  | init r => cases hop
  | sample r =>
    have hreports : pressReports i (sampleTransition r s) = pressReports i s := rfl
    rw [transition, hreports, pressRise]
    cases hs : bit s.p i with
    | true => simp [bit_sampleTransition_p, hs]
    | false => cases bit (sampleTransition r s).p i <;> simp
  | poll m =>
    rw [transition, pressReports_of_results (pollTransition_results s m), pressRise]
    cases hs : bit s.p i <;> cases hm : bit m i <;> simp [reportsPress, hs, hm]
  | read =>
    rw [transition, readTransition_eq, pressReports_of_results (record_results s _), pressRise]
    simp [reportsPress]

/-- Settles O49: the balance of one operation, summed along the list. -/
theorem pressEventsAreConserved : Obligations.PressEventsAreConserved := by
  intro i ops s t hops h
  induction ops generalizing s with
  | nil => cases h; rfl
  | cons op ops ih =>
    obtain ⟨hop, hops⟩ := List.forall_mem_cons.mp hops
    rw [runOps] at h
    split at h
    next u hu =>
      have hrest := ih u hops h
      obtain ⟨rfl, -⟩ := exec_next hu
      have hone := transition_conserves_presses i hop s
      rw [pressRises, hu]
      rw [pressRise] at hone
      dsimp only
      omega
    next => cases h
    next => cases h

/-! ## What an operation's outputs depend on -/

/-- An operation answers its transition in every state that is as initialised as one it answered in. -/
theorem exec_next_of_sameFlag {op : Instr} {s t s' : State} (h : exec op s = .next t)
    (hflag : s'.initialised = s.initialised) : exec op s' = .next (transition op s') := by
  obtain ⟨-, hs | ⟨r, rfl⟩⟩ := exec_next h
  · exact exec_of_initialised (hflag.trans hs) op
  · exact exec_init r s'

/-- Settles O26: field by field, the outputs of each transition name only the word it reports. -/
theorem outputsDependOnTheirOwnWordOnly : Obligations.OutputsDependOnTheirOwnWordOnly := by
  refine ⟨fun op s t x hop h => ?pending, fun mask s t d ca cb h => ?poll, fun op s t ca cb h => ?counters⟩
  case pending =>
    refine ⟨_, exec_next_of_sameFlag h rfl, ?_⟩
    obtain ⟨rfl, -⟩ := exec_next h
    cases op with
    | poll => cases hop
    | init | sample | read => exact ⟨rfl, rfl⟩
  case poll =>
    refine ⟨_, exec_next_of_sameFlag h rfl, ?_⟩
    obtain ⟨rfl, -⟩ := exec_next h
    exact ⟨rfl, rfl⟩
  case counters =>
    refine ⟨_, exec_next_of_sameFlag h rfl, ?_⟩
    obtain ⟨rfl, -⟩ := exec_next h
    cases op with
    | init | sample | poll => exact ⟨rfl, nofun⟩
    | read => exact ⟨rfl, fun _ => rfl⟩

/-! ### Channels are independent -/

/-- Operations that look the same to channel `i` are of one kind, with the same bit of the operand. -/
theorem channelView_eq_cases {i : Channel} {op op' : Instr} (h : channelView i op = channelView i op') :
    (∃ r r', op = .init r ∧ op' = .init r' ∧ bit r i = bit r' i) ∨
    (∃ r r', op = .sample r ∧ op' = .sample r' ∧ bit r i = bit r' i) ∨
    (∃ m m', op = .poll m ∧ op' = .poll m' ∧ bit m i = bit m' i) ∨
    (op = .read ∧ op' = .read) := by
  cases op with
  | init r =>
    cases op' with
    | init r' => exact .inl ⟨r, r', rfl, rfl, congrArg Prod.snd h⟩
    | sample | poll | read => simp [channelView] at h
  | sample r =>
    cases op' with
    | sample r' => exact .inr (.inl ⟨r, r', rfl, rfl, congrArg Prod.snd h⟩)
    | init | poll | read => simp [channelView] at h
  | poll m =>
    cases op' with
    | poll m' => exact .inr (.inr (.inl ⟨m, m', rfl, rfl, congrArg Prod.snd h⟩))
    | init | sample | read => simp [channelView] at h
  | read =>
    cases op' with
    | read => exact .inr (.inr (.inr ⟨rfl, rfl⟩))
    | init | sample | poll => simp [channelView] at h

/-- The four bits a SAMPLE gives channel `i` come from the channel's own bits (40_sampler.md R119). -/
theorem sampleTransition_sameChannel {i : Channel} {r r' : Word} {s s' : State} (hr : bit r i = bit r' i)
    (h : sameChannel i s s') : sameChannel i (sampleTransition r s) (sampleTransition r' s') := by
  obtain ⟨hd, hp, hca, hcb⟩ := h
  simp [sameChannel, bit_sampleTransition_d, bit_sampleTransition_p, bit_sampleTransition_ca, bit_sampleTransition_cb, hr,
    hd, hp, hca, hcb]

/-- Settles O21: two operations of one kind, whose transitions act on channel `i` by its own bits alone. -/
theorem channelsAreIndependent : Obligations.ChannelsAreIndependent := by
  intro i op op' s s' t t' hview hsame h h'
  obtain ⟨rfl, -⟩ := exec_next h
  obtain ⟨rfl, -⟩ := exec_next h'
  obtain ⟨hd, hp, hca, hcb⟩ := id hsame
  obtain ⟨r, r', rfl, rfl, hr⟩ | ⟨r, r', rfl, rfl, hr⟩ | ⟨m, m', rfl, rfl, hm⟩ | ⟨rfl, rfl⟩ := channelView_eq_cases hview
  · exact ⟨by simp [transition, sameChannel, hr], [], [], by simp [transition], by simp [transition], rfl⟩
  · exact ⟨sampleTransition_sameChannel hr hsame, [], [], by simp [transition], by simp [transition], rfl⟩
  · exact ⟨by simp [transition, sameChannel, hm, hd, hp, hca, hcb], _, _, pollTransition_results s m,
      pollTransition_results s' m', by simp [resultBit, hm, hp]⟩
  · exact ⟨hsame, _, _, record_results s _, record_results s' _, by simp [resultBit, outputs, hd]⟩

/-! ## The clock edge as a serialization -/

/-- The tick of an edge as a list of operations. -/
def tickOps (io : Ports) : List Instr := if io.tick then [.sample io.rawIn] else []

section EdgeOps

variable {order : SameCycleOrder} {io : Ports} {s : State}

theorem edgeOps_init (hi : io.init = true) : edgeOps order io s = [.init io.rawIn] := by
  simp [edgeOps, hi]

theorem edgeOps_sampleFirst (hi : io.init = false) (ha : acceptsQuery io s = true) :
    edgeOps .sampleFirst io s = tickOps io ++ [.poll io.qMask] := by
  cases ht : io.tick <;> simp [edgeOps, tickOps, hi, ha, ht]

theorem edgeOps_pollFirst (hi : io.init = false) (ha : acceptsQuery io s = true) :
    edgeOps .pollFirst io s = .poll io.qMask :: tickOps io := by
  cases ht : io.tick <;> simp [edgeOps, tickOps, hi, ha, ht]

theorem edgeOps_declines (hi : io.init = false) (ha : acceptsQuery io s = false) :
    edgeOps order io s = tickOps io := by
  simp [edgeOps, tickOps, hi, ha]

/-- A tick is performed after an INIT, and no tick is nothing to perform. -/
theorem runOps_tickOps (hready : s.initialised = true ∨ io.tick = false) :
    runOps (tickOps io) s = .next (sampleTick io s) := by
  cases ht : io.tick with
  | false => simp [tickOps, ht, sampleTick_of_noTick s ht, runOps]
  | true =>
    rw [sampleTick_of_tick s ht, tickOps, if_pos ht]
    exact runOps_samples [io.rawIn] (hready.resolve_right (by simp [ht]))

theorem sampleTick_initialised (io : Ports) (s : State) : (sampleTick io s).initialised = s.initialised := by
  unfold sampleTick
  split <;> rfl

end EdgeOps

/-- The rest of a serialization goes on from where its first part ended (20_memory.md R45). -/
theorem runOps_append {ops : List Instr} {s t : State} (h : runOps ops s = .next t) (ops' : List Instr) :
    runOps (ops ++ ops') s = runOps ops' t := by
  induction ops generalizing s with
  | nil => cases h; rfl
  | cons op ops ih =>
    rw [runOps] at h
    rw [List.cons_append, runOps]
    split at h
    next u hu => exact ih h
    next => cases h
    next => cases h

/-- Equal operation levels stay equal under a SAMPLE, which reads and writes nothing else (20_memory.md R57). -/
theorem sampleTransition_sameOperationLevel {s s' : State} (r : Word) (h : sameOperationLevel s s') :
    sameOperationLevel (sampleTransition r s) (sampleTransition r s') := by
  obtain ⟨hd, hp, hca, hcb, hinit, hres⟩ := h
  simp [sameOperationLevel, sampleTransition, hd, hp, hca, hcb, hinit, hres]

theorem sampleTick_sameOperationLevel {s s' : State} (io : Ports) (h : sameOperationLevel s s') :
    sameOperationLevel (sampleTick io s) (sampleTick io s') := by
  unfold sampleTick
  split
  · exact sampleTransition_sameOperationLevel io.rawIn h
  · exact h

/-- What an edge does for the handshake around its operations is no part of the operation level (20_memory.md R57). -/
theorem performEdge_sameOperationLevel (order : SameCycleOrder) {io : Ports} {s : State} (hi : io.init = false)
    (hready : s.initialised = true ∨ (io.tick = false ∧ acceptsQuery io s = false)) :
    ∃ u, runOps (edgeOps order io s) s = .next u ∧ sameOperationLevel u (performEdge order io s) := by
  have htick : s.initialised = true ∨ io.tick = false := hready.imp_right And.left
  cases ha : acceptsQuery io s with
  | true =>
    have hs : s.initialised = true := hready.resolve_right (by simp [ha])
    cases order with
    | sampleFirst =>
      rw [edgeOps_sampleFirst hi ha, runOps_append (runOps_tickOps htick), performEdge_sampleFirst ha,
        runOps_cons ((sampleTick_initialised io s).trans hs)]
      exact ⟨_, rfl, rfl, rfl, rfl, rfl, rfl, rfl⟩
    | pollFirst =>
      rw [edgeOps_pollFirst hi ha, performEdge_pollFirst ha, runOps_cons hs]
      have hpolled : sameOperationLevel (pollTransition io.qMask s) (pollThroughHandshake io.qMask s) :=
        ⟨rfl, rfl, rfl, rfl, rfl, rfl⟩
      exact ⟨_, runOps_tickOps (.inl hs), sampleTick_sameOperationLevel io hpolled⟩
  | false =>
    rw [edgeOps_declines hi ha, performEdge_declines ha]
    refine ⟨_, runOps_tickOps htick, ?_⟩
    split <;> exact ⟨rfl, rfl, rfl, rfl, rfl, rfl⟩

/-- Settles O43: INIT is an edge's only operation, or it performs those of an edge with `init` = 0; sampling the request touches
none of what they left. -/
theorem clockEdgeRefinesTheSerialization : Obligations.ClockEdgeRefinesTheSerialization := by
  intro order io s t h
  obtain ⟨-, ⟨hi, rfl⟩ | ⟨hi, hready, rfl⟩⟩ := clockEdge_next h
  · rw [edgeOps_init hi]
    exact ⟨initTransition io.rawIn s, rfl, rfl, rfl, rfl, rfl, rfl, rfl⟩
  · exact performEdge_sameOperationLevel order hi hready

/-! ## A reader in another clock domain -/

/-- Each bit such a reader sees is the old one where the draw says so, and else the new one (70_reset_and_hazards.md R188). -/
theorem bit_tornWord (pick before after : Word) (i : Channel) :
    bit (tornWord pick before after) i = if bit pick i then bit before i else bit after i := by
  rw [tornWord, bit_or, bit_and, bit_and, bit_not]
  cases bit pick i <;> simp

/-- The draw that takes the old bits exactly where the word has them. -/
def oldBitsOf (before w : Word) : Word := ~~~(w ^^^ before)

/-- Every mixture of old and new bits is what some draw gives. -/
theorem tornWord_oldBitsOf {before after w : Word} (h : ∀ i, bit w i = bit before i ∨ bit w i = bit after i) :
    tornWord (oldBitsOf before w) before after = w := by
  refine word_ext fun i => ?_
  rw [bit_tornWord, oldBitsOf, bit_not, bit_xor]
  by_cases hold : bit w i = bit before i
  · simp [hold]
  · have hpick : (!(bit w i ^^ bit before i)) = false := by simpa using hold
    rw [hpick, (h i).resolve_left hold]
    rfl

theorem foreignReadEdge_of_next {order : SameCycleOrder} {io : Ports} {s t : State} (hs : s.initialised = true)
    (h : clockEdge order io s = .next t) (pick : Word) :
    foreignReadEdge order pick io s =
      .next { t with results := t.results ++ [.foreignRead (tornWord pick s.d t.d)] } := by
  simp [foreignReadEdge, h, hs, record, outputs]

/-- Settles O48: the mixture of each draw, and the draw of each mixture. -/
theorem foreignReadSeesOldOrNewBits : Obligations.ForeignReadSeesOldOrNewBits := by
  intro order io s t hs h
  refine ⟨fun pick => ⟨_, foreignReadEdge_of_next hs h pick, fun i => ?_⟩, fun w hw => ⟨oldBitsOf s.d w, ?_⟩⟩
  · rw [bit_tornWord]
    split <;> simp
  · rw [foreignReadEdge_of_next hs h, tornWord_oldBitsOf hw]

end Sys2Proof.Machine

/-! ## Edges one after the other -/

namespace Sys2Proof.Machine

theorem runEdges_cons_of_next {io : Ports} {s t : State} (h : runEdge io s = .next t) (ios : List Ports) :
    runEdges (io :: ios) s = runEdges ios t := by
  rw [runEdges, h]

theorem runEdges_append {ios : List Ports} {s t : State} (h : runEdges ios s = .next t) (ios' : List Ports) :
    runEdges (ios ++ ios') s = runEdges ios' t := by
  induction ios generalizing s with
  | nil => cases h; rfl
  | cons io ios ih =>
    rw [runEdges] at h
    split at h
    next u hu =>
      rw [List.cons_append, runEdges_cons_of_next hu]
      exact ih h
    next => cases h
    next => cases h

/-- What every admitted edge keeps, answering, a run of them keeps. -/
theorem runEdges_keeps {P : State → Prop} {admitted : Ports → Prop}
    (hedge : ∀ io s, admitted io → P s → ∃ t, runEdge io s = .next t ∧ P t) {ios : List Ports} {s : State}
    (hios : ∀ io ∈ ios, admitted io) (hP : P s) : ∃ t, runEdges ios s = .next t ∧ P t := by
  induction ios generalizing s with
  | nil => exact ⟨s, rfl, hP⟩
  | cons io ios ih =>
    obtain ⟨hio, hrest⟩ := List.forall_mem_cons.mp hios
    obtain ⟨u, hu, hPu⟩ := hedge io s hio hP
    rw [runEdges_cons_of_next hu]
    exact ih hrest hPu

/-! ### A settled handshake -/

/-- The request, all of the chain and the acknowledge are at one level: quiet at 0, acknowledged at 1 (20_memory.md R54). -/
def settledHandshake (q : Bool) (s : State) : Prop :=
  s.qAck = q ∧ s.reqPrev = q ∧ s.qReqSync = List.replicate s.qReqSync.length q

theorem quietHandshake_iff (s : State) : quietHandshake s ↔ settledHandshake false s := Iff.rfl

theorem acknowledgedHandshake_iff (s : State) : acknowledgedHandshake s ↔ settledHandshake true s := Iff.rfl

theorem shiftRequest_replicate (q : Bool) (n : Nat) : shiftRequest q (List.replicate n q) = List.replicate n q := by
  cases n with
  | zero => rfl
  | succ n => simpa [List.replicate_succ] using shiftRequest_runs q q q 0 n

section SettledEdge

variable {q : Bool} {order : SameCycleOrder} {io : Ports} {s : State}

/-- Where the chain is at the level of the request, the block sees that level. -/
theorem requestSeen_replicate {n : Nat} (hchain : s.qReqSync = List.replicate n q) (hq : io.qReq = q) :
    requestSeen io s = q := by
  cases n with
  | zero => rw [requestSeen_nil hchain, hq]
  | succ n => exact requestSeen_runs (x := q) (a := 0) hchain

/-- An edge at which the block sees what it has acknowledged performs its tick alone (20_memory.md R53). -/
theorem clockEdge_of_seen_eq_ack (hv : handshakeViolated io s = false) (hi : io.init = false) (hs : s.initialised = true)
    (hseen : requestSeen io s = s.qAck) : clockEdge order io s = .next (sampleRequest io (sampleTick io s)) := by
  have ha : acceptsQuery io s = false := acceptsQuery_eq_false (fun h => hseen.symm.trans h)
  have hr : releasesAck io s = false := by simp [releasesAck, hseen]
  rw [clockEdge_performs hv hi hs, performEdge_declines ha, if_neg (by simp [hr])]

/-- A requester that leaves a settled handshake as it is breaks no duty, and INIT may take the cycle of a quiet one. -/
theorem handshakeViolated_of_settled (hset : settledHandshake q s) (hq : io.qReq = q) (hi : io.init = true → q = false) :
    handshakeViolated io s = false := by
  obtain ⟨hack, hprev, hchain⟩ := hset
  have hseen := requestSeen_replicate hchain hq
  rw [← Bool.not_eq_true, handshakeViolated_iff, hack, hprev, hq, hseen]
  rintro (⟨hup, -, hdown, -⟩ | ⟨hdown, hup, -⟩ | ⟨hinit, hup⟩ | ⟨hup, hdown, -⟩)
  · exact Bool.false_ne_true (hdown.symm.trans hup)
  · exact Bool.false_ne_true (hdown.symm.trans hup)
  · exact Bool.false_ne_true ((hi hinit).symm.trans (hup.elim id id))
  · exact Bool.false_ne_true (hdown.symm.trans hup)

theorem settledHandshake_sampleRequest (hset : settledHandshake q s) (hq : io.qReq = q) :
    settledHandshake q (sampleRequest io s) := by
  obtain ⟨hack, -, hchain⟩ := hset
  refine ⟨hack, hq, ?_⟩
  rw [sampleRequest_qReqSync, length_shiftRequest, hq, hchain, shiftRequest_replicate, List.length_replicate]

theorem settledHandshake_sampleTick (hset : settledHandshake q s) : settledHandshake q (sampleTick io s) := by
  unfold sampleTick
  split <;> exact hset

theorem clockEdge_of_settled (hset : settledHandshake q s) (hq : io.qReq = q) (hi : io.init = false)
    (hs : s.initialised = true) : clockEdge order io s = .next (sampleRequest io (sampleTick io s)) := by
  have hv := handshakeViolated_of_settled hset hq (by simp [hi])
  obtain ⟨hack, -, hchain⟩ := hset
  exact clockEdge_of_seen_eq_ack hv hi hs ((requestSeen_replicate hchain hq).trans hack.symm)

theorem clockEdge_init_of_quiet (hset : settledHandshake false s) (hq : io.qReq = false) (hi : io.init = true) :
    clockEdge order io s = .next (sampleRequest io (initTransition io.rawIn s)) :=
  clockEdge_init (handshakeViolated_of_settled hset hq fun _ => rfl) hi

theorem settledHandshake_initTransition (hset : settledHandshake false s) (r : Word) :
    settledHandshake false (initTransition r s) := by
  obtain ⟨-, hprev, hchain⟩ := hset
  exact ⟨rfl, hprev, hchain⟩

end SettledEdge

/-! ### Booting, and ticks without a query -/

/-- The handshake is quiet, and the outputs are those given so far. -/
def quietWith (given : List Result) (s : State) : Prop := settledHandshake false s ∧ s.results = given

/-- An edge without a request leaves a quiet machine quiet and gives nothing; INIT may take it before the first INIT too. -/
theorem runEdge_quiet {given : List Result} {io : Ports} {s : State} (h : quietWith given s) (hq : io.qReq = false)
    (hready : io.init = true ∨ s.initialised = true) :
    ∃ t, runEdge io s = .next t ∧ quietWith given t ∧ t.initialised = true := by
  obtain ⟨hset, hres⟩ := h
  cases hi : io.init with
  | true =>
    have hset' := settledHandshake_sampleRequest (settledHandshake_initTransition hset io.rawIn) hq
    exact ⟨_, clockEdge_init_of_quiet hset hq hi, ⟨hset', hres⟩, rfl⟩
  | false =>
    have hs := hready.resolve_left (by simp [hi])
    have hset' := settledHandshake_sampleRequest (settledHandshake_sampleTick (io := io) hset) hq
    exact ⟨_, clockEdge_of_settled hset hq hi hs, ⟨hset', (sampleTick_results io s).trans hres⟩,
      (sampleTick_initialised io s).trans hs⟩

/-- Settles O10: the cycles before the last keep the machine quiet, and the last is an INIT. -/
theorem initHeldIsOneInit : Obligations.InitHeldIsOneInit := by
  intro ios last s hquiet hios
  obtain ⟨hios, hlast⟩ := List.forall_mem_append.mp hios
  obtain ⟨hi, hq⟩ := hlast last (List.mem_singleton_self last)
  obtain ⟨u, hu, hset, hres⟩ := runEdges_keeps (P := quietWith s.results)
    (admitted := fun io => io.init = true ∧ io.qReq = false)
    (fun io v ⟨hi, hq⟩ hv => (runEdge_quiet hv hq (.inl hi)).imp fun _ ⟨ht, hP, _⟩ => ⟨ht, hP⟩) hios ⟨hquiet, rfl⟩
  have hlast : runEdge last u = .next (sampleRequest last (initTransition last.rawIn u)) :=
    clockEdge_init_of_quiet hset hq hi
  rw [runEdges_append hu, runEdges_cons_of_next hlast]
  exact ⟨_, rfl, rfl, rfl, rfl, rfl, rfl, rfl, hres,
    settledHandshake_sampleRequest (settledHandshake_initTransition hset last.rawIn) hq⟩

/-- Settles O11: the first cycle leaves the machine initialised and quiet, and the others keep it so. -/
theorem bootInOrderNeverFaults : Obligations.BootInOrderNeverFaults := by
  intro boot boots ios s hquiet hboots hios
  obtain ⟨⟨hi, -, hq⟩, hboots⟩ := List.forall_mem_cons.mp hboots
  obtain ⟨u, hu, hPu⟩ := runEdge_quiet (given := s.results) ⟨hquiet, rfl⟩ hq (.inl hi)
  have hquery : ∀ io ∈ boots ++ ios, io.qReq = false :=
    List.forall_mem_append.mpr ⟨fun io hio => (hboots io hio).2.2, fun io hio => (hios io hio).2⟩
  obtain ⟨t, ht, ⟨hset, hres⟩, hinit⟩ := runEdges_keeps
    (P := fun v => quietWith s.results v ∧ v.initialised = true) (admitted := fun io => io.qReq = false)
    (fun io v hq ⟨hv, hs⟩ => runEdge_quiet hv hq (.inr hs)) hquery hPu
  rw [List.cons_append, runEdges_cons_of_next hu]
  exact ⟨t, ht, hinit, hset, hres⟩

/-- Edges with a tick and no query do to the operation level what the SAMPLEs do, from states that agree on it. -/
theorem runEdges_samples {ios : List Ports} {s u : State} (hs : s.initialised = true) (hset : settledHandshake false s)
    (hios : ∀ io ∈ ios, io.init = false ∧ io.tick = true ∧ io.qReq = false) (hsame : sameOperationLevel s u) :
    ∃ t, runEdges ios s = .next t ∧ sameOperationLevel t (afterSamples (ios.map Ports.rawIn) u) := by
  induction ios generalizing s u with
  | nil => exact ⟨s, rfl, hsame⟩
  | cons io ios ih =>
    obtain ⟨⟨hi, ht, hq⟩, hrest⟩ := List.forall_mem_cons.mp hios
    have hedge : runEdge io s = .next (sampleRequest io (sampleTick io s)) := clockEdge_of_settled hset hq hi hs
    have hset' := settledHandshake_sampleRequest (settledHandshake_sampleTick (io := io) hset) hq
    rw [runEdges_cons_of_next hedge]
    rw [sampleTick_of_tick s ht] at hset' ⊢
    exact ih hs hset' hrest (sampleTransition_sameOperationLevel io.rawIn hsame)

/-- Settles O47: the edges and the SAMPLEs start from the same state. -/
theorem heldTickSamplesEveryCycle : Obligations.HeldTickSamplesEveryCycle := by
  intro ios s hs hquiet hios
  obtain ⟨t, ht, hsame⟩ := runEdges_samples hs hquiet hios ⟨rfl, rfl, rfl, rfl, rfl, rfl⟩
  exact ⟨t, _, ht, runOps_samples _ hs, hsame⟩

/-! ### A request on its way through the synchronizer -/

/-- The requester holds `q_req` at `q`, and its mask with it where `q` = 1, and no INIT is applied. -/
def holdsLevel (q : Bool) (mask : Word) (io : Ports) : Prop :=
  io.init = false ∧ io.qReq = q ∧ (q = true → io.qMask = mask)

/-- The request level `q`, held for `j` edges, has entered the first `j` flip-flops; `m` are still at the level the block has
acknowledged (20_memory.md R50). -/
def requestTravels (q : Bool) (mask : Word) (j m : Nat) (s : State) : Prop :=
  s.initialised = true ∧ s.qAck = (!q) ∧ (s.reqPrev = q ↔ 0 < j) ∧ (q = true → 0 < j → s.reqMask = mask) ∧
    s.qReqSync = List.replicate j q ++ List.replicate m (!q)

/-- The two states have the same result on `q_matched` and the same outputs so far: no POLL came between them. -/
def samePolls (s t : State) : Prop := t.qMatched = s.qMatched ∧ t.results = s.results

section RequestTravels

variable {q : Bool} {mask : Word} {j m : Nat} {order : SameCycleOrder} {io : Ports} {s : State}

/-- A new level is about to enter a handshake settled at the other one. -/
theorem requestTravels_of_settled (mask : Word) (hs : s.initialised = true) (hset : settledHandshake (!q) s) :
    requestTravels q mask 0 s.qReqSync.length s := by
  obtain ⟨hack, hprev, hchain⟩ := hset
  exact ⟨hs, hack, by simp [hprev], by simp, hchain⟩

/-- A requester that holds its level and mask breaks no duty (20_memory.md R54). -/
theorem handshakeViolated_of_travels (h : requestTravels q mask j m s) (hio : holdsLevel q mask io) :
    handshakeViolated io s = false := by
  obtain ⟨-, hack, hprev, hmask, -⟩ := h
  obtain ⟨hi, hq, hmask'⟩ := hio
  rw [← Bool.not_eq_true, handshakeViolated_iff]
  rintro (⟨hreq, hp, -, hne⟩ | ⟨hreq, -, hk⟩ | ⟨hinit, -⟩ | ⟨hreq, -, hk⟩)
  · have hq1 : q = true := hq.symm.trans hreq
    exact hne ((hmask' hq1).trans (hmask hq1 (hprev.mp (hp.trans hq1.symm))).symm)
  · simp [hack, ← hq, hreq] at hk
  · simp [hi] at hinit
  · simp [hack, ← hq, hreq] at hk

/-- While a flip-flop is left, the edge shifts the level one on and performs its tick alone. -/
theorem clockEdge_of_travels (h : requestTravels q mask j (m + 1) s) (hio : holdsLevel q mask io) :
    ∃ t, clockEdge order io s = .next t ∧ requestTravels q mask (j + 1) m t ∧ samePolls s t := by
  have hv := handshakeViolated_of_travels h hio
  obtain ⟨hs, hack, hprev, hmask, hchain⟩ := h
  obtain ⟨hi, hq, hmask'⟩ := hio
  have hedge : clockEdge order io s = .next (sampleRequest io (sampleTick io s)) :=
    clockEdge_of_seen_eq_ack hv hi hs ((requestSeen_runs hchain).trans hack.symm)
  obtain ⟨-, hsync, hlast, hrecord, -⟩ := clockEdge_next_request hedge
  refine ⟨_, hedge, ⟨(sampleTick_initialised io s).trans hs, (sampleTick_qAck io s).trans hack, ?prev, ?mask, ?chain⟩,
    sampleTick_qMatched io s, sampleTick_results io s⟩
  case prev => simp [hq]
  case mask =>
    intro hq1 _
    rw [hrecord]
    split
    next => exact hmask' hq1
    next hheld =>
      have hp : s.reqPrev = true := by simpa [requestRises, hq, hq1] using hheld
      exact hmask hq1 (hprev.mp (hp.trans hq1.symm))
  case chain => rw [hsync, hq, hchain, shiftRequest_runs, List.replicate_succ, List.cons_append]

/-- At the end of the chain the block sees the level, and the edge that answers it settles the handshake there. -/
theorem clockEdge_of_arrived (h : requestTravels q mask j 0 s) (hio : holdsLevel q mask io) :
    requestSeen io s = q ∧ clockEdge order io s = .next (sampleRequest io (performEdge order io s)) ∧
      settledHandshake q (sampleRequest io (performEdge order io s)) := by
  have hv := handshakeViolated_of_travels h hio
  obtain ⟨hs, -, -, -, hchain⟩ := h
  obtain ⟨hi, hq, -⟩ := hio
  have hall : s.qReqSync = List.replicate j q := by simpa using hchain
  have hseen := requestSeen_replicate hall hq
  have hedge := clockEdge_performs (order := order) hv hi hs
  obtain ⟨hack, hsync, hlast, -, -⟩ := clockEdge_next_request hedge
  refine ⟨hseen, hedge, hack.trans hseen, hlast.trans hq, ?_⟩
  rw [hsync, hq, hall, shiftRequest_replicate, List.length_replicate]

/-- A level held no longer than the flip-flops left to pass is still on its way, and no POLL has come of it. -/
theorem runEdges_of_travels {ios : List Ports} (h : requestTravels q mask j m s) (hios : ∀ io ∈ ios, holdsLevel q mask io)
    (hlen : ios.length ≤ m) :
    ∃ t, runEdges ios s = .next t ∧ requestTravels q mask (j + ios.length) (m - ios.length) t ∧ samePolls s t := by
  induction ios generalizing j m s with
  | nil => exact ⟨s, rfl, h, rfl, rfl⟩
  | cons io ios ih =>
    obtain ⟨hio, hrest⟩ := List.forall_mem_cons.mp hios
    rw [List.length_cons] at hlen
    obtain ⟨m, rfl⟩ : ∃ m', m = m' + 1 := ⟨m - 1, by omega⟩
    obtain ⟨u, hu, htravels, hmatched, hres⟩ := clockEdge_of_travels (order := Config.sameCycleOrder s.cycle) h hio
    obtain ⟨t, ht, htravels', hmatched', hres'⟩ := ih htravels hrest (by omega)
    have hj : j + (io :: ios).length = j + 1 + ios.length := by rw [List.length_cons]; omega
    have hm : m + 1 - (io :: ios).length = m - ios.length := by rw [List.length_cons]; omega
    rw [runEdges_cons_of_next hu, hj, hm]
    exact ⟨t, ht, htravels', hmatched'.trans hmatched, hres'.trans hres⟩

end RequestTravels

/-- The handshake is settled at `q` in an initialised machine, and no POLL has come since `v`. -/
def settledSince (q : Bool) (v s : State) : Prop := s.initialised = true ∧ settledHandshake q s ∧ samePolls v s

/-- A settled handshake stays so while the requester holds its level, and no POLL comes of it (20_memory.md R53). -/
theorem runEdge_settledSince {q : Bool} {v : State} {io : Ports} {s : State} (hi : io.init = false) (hq : io.qReq = q)
    (h : settledSince q v s) : ∃ t, runEdge io s = .next t ∧ settledSince q v t := by
  obtain ⟨hs, hset, hmatched, hres⟩ := h
  exact ⟨_, clockEdge_of_settled hset hq hi hs, (sampleTick_initialised io s).trans hs,
    settledHandshake_sampleRequest (settledHandshake_sampleTick hset) hq, (sampleTick_qMatched io s).trans hmatched,
    (sampleTick_results io s).trans hres⟩

/-- A new level held past the synchronizer: on its way without a POLL for the chain's edges, seen and answered at the next one,
and settled from then on. -/
theorem runEdges_of_answered {q : Bool} {mask : Word} {ios : List Ports} {s : State} {io : Ports} {rest : List Ports}
    (hs : s.initialised = true) (hset : settledHandshake (!q) s) (hios : ∀ io ∈ ios, holdsLevel q mask io)
    (hdrop : ios.drop s.qReqSync.length = io :: rest) :
    ∃ u t, runEdges (ios.take s.qReqSync.length) s = .next u ∧ requestTravels q mask s.qReqSync.length 0 u ∧
      samePolls s u ∧ requestSeen io u = q ∧ runEdges ios s = .next t ∧
      settledSince q (performEdge (Config.sameCycleOrder u.cycle) io u) t := by
  have hlen : s.qReqSync.length ≤ ios.length := by
    have hpos := congrArg List.length hdrop
    rw [List.length_drop, List.length_cons] at hpos
    omega
  have hsplit : ios.take s.qReqSync.length ++ io :: rest = ios := by rw [← hdrop, List.take_append_drop]
  rw [← hsplit] at hios
  obtain ⟨htake, hrest⟩ := List.forall_mem_append.mp hios
  obtain ⟨hio, hrest⟩ := List.forall_mem_cons.mp hrest
  obtain ⟨u, hu, htravels, hsame⟩ :=
    runEdges_of_travels (requestTravels_of_settled mask hs hset) htake (List.length_take_le _ _)
  rw [List.length_take_of_le hlen, Nat.zero_add, Nat.sub_self] at htravels
  obtain ⟨hseen, hedge, hset'⟩ := clockEdge_of_arrived (order := Config.sameCycleOrder u.cycle) htravels hio
  have hinit : (sampleRequest io (performEdge (Config.sameCycleOrder u.cycle) io u)).initialised = true := by
    obtain ⟨hui, -⟩ := htravels
    exact clockEdge_next_initialised hui hedge
  obtain ⟨t, ht, hsettled⟩ := runEdges_keeps (admitted := holdsLevel q mask)
    (fun io w ⟨hi, hq, _⟩ hw => runEdge_settledSince hi hq hw) hrest ⟨hinit, hset', rfl, rfl⟩
  refine ⟨u, t, hu, htravels, hsame, hseen, ?_, hsettled⟩
  rw [← hsplit, runEdges_append hu, runEdges_cons_of_next hedge]
  exact ht

/-- Settles O44: up to the chain's length the request is on its way; past it, the edge that sees it performs the one POLL. -/
theorem handshakePerformsExactlyOnePoll : Obligations.HandshakePerformsExactlyOnePoll := by
  intro mask ios s hs hquiet hholds
  have hios : ∀ io ∈ ios, holdsLevel true mask io := fun io hio =>
    have ⟨hi, hq, hm⟩ := hholds io hio
    ⟨hi, hq, fun _ => hm⟩
  cases hdrop : ios.drop s.qReqSync.length with
  | nil =>
    obtain ⟨t, ht, ⟨-, hack, -⟩, hmatched, hres⟩ :=
      runEdges_of_travels (requestTravels_of_settled (q := true) mask hs hquiet) hios (List.drop_eq_nil_iff.mp hdrop)
    exact ⟨t, ht, fun _ => ⟨hack, hmatched, hres⟩, nofun⟩
  | cons io rest =>
    obtain ⟨u, t, hu, ⟨hui, hua, -⟩, ⟨-, hures⟩, hseen, ht, -, ⟨hack, -, -⟩, htm, htr⟩ :=
      runEdges_of_answered (q := true) hs hquiet hios hdrop
    obtain ⟨-, hmatched, hres⟩ :=
      performEdge_accepts (Config.sameCycleOrder u.cycle) (acceptsQuery_of_seen hseen hua)
    refine ⟨t, ht, fun hlen => ?short, ?answered⟩
    case short => simp [List.drop_eq_nil_of_le hlen] at hdrop
    case answered =>
      rintro _ _ ⟨⟩
      refine ⟨hack, by rw [htr, hres, htm, hmatched, hures], u, _, hu, exec_of_initialised hui _, ?_⟩
      have hmask : io.qMask = mask := by
        have hmem : io ∈ ios := List.mem_of_mem_drop (i := s.qReqSync.length) (by simp [hdrop])
        obtain ⟨-, -, hm⟩ := hholds io hmem
        exact hm
      rw [htm, hmatched, hmask]
      cases htick : io.tick with
      | false => exact .inl (by rw [pendingPolled_of_noTick htick]; rfl)
      | true =>
        have hp := pendingPolled_eq_or (Config.sameCycleOrder u.cycle) io u
        rw [sampleTick_of_tick u htick] at hp
        exact hp.imp (congrArg _) fun hp => ⟨rfl, congrArg _ hp⟩

/-- Settles O45: the withdrawal travels as the request did, and the edge that sees it only lowers the acknowledge. -/
theorem withdrawnRequestLowersTheAcknowledge : Obligations.WithdrawnRequestLowersTheAcknowledge := by
  intro ios s hs hacked hholds
  have hios : ∀ io ∈ ios, holdsLevel false 0x00#8 io := fun io hio =>
    have ⟨hi, hq⟩ := hholds io hio
    ⟨hi, hq, nofun⟩
  cases hdrop : ios.drop s.qReqSync.length with
  | nil =>
    have hlen := List.drop_eq_nil_iff.mp hdrop
    obtain ⟨t, ht, ⟨-, hack, -⟩, hmatched, hres⟩ :=
      runEdges_of_travels (requestTravels_of_settled (q := false) 0x00#8 hs hacked) hios hlen
    exact ⟨t, ht, hres, hmatched, fun _ => hack, fun hlt => absurd hlen (Nat.not_le_of_lt hlt)⟩
  | cons io rest =>
    obtain ⟨u, t, -, -, ⟨hum, hur⟩, hseen, ht, -, hset, htm, htr⟩ :=
      runEdges_of_answered (q := false) hs hacked hios hdrop
    obtain ⟨-, -, hmatched, hres⟩ := performEdge_declines_fields (Config.sameCycleOrder u.cycle)
      (acceptsQuery_eq_false (io := io) (s := u) (by simp [hseen]))
    refine ⟨t, ht, htr.trans (hres.trans hur), htm.trans (hmatched.trans hum), fun hlen => ?short, fun _ => hset⟩
    case short => simp [List.drop_eq_nil_of_le hlen] at hdrop

end Sys2Proof.Machine

/-! ## The assembler -/

namespace Sys2Proof.Machine

/-- A line assembles only to the words of its expansion (30_encoding.md R86). -/
theorem assembleLine_eq_some {l : AsmLine} {ws : List CommandWord} (h : assembleLine l = some ws) :
    ws = (expandLine l).map encode := by
  unfold assembleLine at h
  split at h <;> cases h
  rfl

theorem map_decode_map_encode (ops : List Instr) : (ops.map encode).map decode = ops.map .ok := by
  simp [List.map_map, Function.comp_def, decode_encode]

/-- A stream assembles where its first line and its other lines do, to their words in order. -/
theorem assemble_cons_eq_some {l : AsmLine} {ls : List AsmLine} {ws : List CommandWord} :
    assemble (l :: ls) = some ws ↔
      ∃ part rest, assembleLine l = some part ∧ assemble ls = some rest ∧ ws = part ++ rest := by
  rw [assemble]
  cases assembleLine l <;> cases assemble ls <;> simp [eq_comm]

theorem assemble_eq_some_iff (ls : List AsmLine) (ws : List CommandWord) :
    assemble ls = some ws ↔
      ∃ parts : List (List CommandWord), ls.map assembleLine = parts.map some ∧ ws = parts.flatten := by
  induction ls generalizing ws with
  | nil =>
    constructor
    · rintro ⟨⟩
      exact ⟨[], rfl, rfl⟩
    · rintro ⟨parts, hparts, rfl⟩
      rw [List.map_nil, eq_comm, List.map_eq_nil_iff] at hparts
      rw [hparts]
      rfl
  | cons l ls ih =>
    rw [assemble_cons_eq_some]
    constructor
    · rintro ⟨part, rest, hl, hls, rfl⟩
      obtain ⟨parts, hparts, rfl⟩ := (ih rest).mp hls
      exact ⟨part :: parts, by simp [hl, hparts], rfl⟩
    · rintro ⟨parts, hparts, rfl⟩
      cases parts with
      | nil => cases hparts
      | cons part parts =>
        rw [List.map_cons, List.map_cons, List.cons.injEq] at hparts
        obtain ⟨hl, hls⟩ := hparts
        exact ⟨part, parts.flatten, hl, (ih _).mpr ⟨parts, hls, rfl⟩, rfl⟩

/-- Every word of an assembled stream decodes to the operation it was encoded from (30_encoding.md R84). -/
theorem map_decode_of_assemble {ls : List AsmLine} {ws : List CommandWord} (h : assemble ls = some ws) :
    ws.map decode = (ls.flatMap expandLine).map .ok := by
  induction ls generalizing ws with
  | nil => cases h; rfl
  | cons l ls ih =>
    obtain ⟨part, rest, hl, hls, rfl⟩ := assemble_cons_eq_some.mp h
    rw [List.map_append, ih hls, assembleLine_eq_some hl, map_decode_map_encode, List.flatMap_cons, List.map_append]

/-- A stream that assembles has no line that the assembler refuses (log entry 14). -/
theorem assemble_eq_none_of_mem {ls : List AsmLine} {l : AsmLine} (hmem : l ∈ ls) (hl : assembleLine l = none) :
    assemble ls = none := by
  refine Option.eq_none_iff_forall_ne_some.mpr fun ws h => ?_
  obtain ⟨parts, hparts, -⟩ := (assemble_eq_some_iff ls ws).mp h
  have hnone : none ∈ parts.map some := by
    rw [← hparts, ← hl]
    exact List.mem_map_of_mem hmem
  simp at hnone

theorem assembleLine_of_illFormed {l : AsmLine} (h : asmWellFormed l = false) : assembleLine l = none := by
  simp [assembleLine, h]

/-- A line of one operation assembles to one word, which decodes to that operation. -/
theorem assembleLine_single {l : AsmLine} {op : Instr} (hwf : asmWellFormed l = true) (hop : expandLine l = [op]) :
    ∃ w, assembleLine l = some [w] ∧ decode w = .ok op :=
  ⟨encode op, by rw [assembleLine_of_wellFormed hwf, hop]; rfl, decode_encode op⟩

/-- Settles O52: one word per line of one operation, the lines' words in order, and a literal over 255 ill-formed. -/
theorem assembledStreamDecodes : Obligations.AssembledStreamDecodes := by
  refine ⟨fun v hv => ?literals, assembleLine_single rfl rfl, assemble_eq_some_iff, fun ls ws => map_decode_of_assemble,
    fun ls l v hmem hv hl => assemble_eq_none_of_mem hmem (assembleLine_of_illFormed ?refused)⟩
  case literals =>
    have hbyte : isByteLiteral v = true := by simpa [isByteLiteral] using hv
    exact ⟨assembleLine_single hbyte rfl, assembleLine_single hbyte rfl, assembleLine_single hbyte rfl⟩
  case refused =>
    have hbyte : isByteLiteral v = false := by simpa [isByteLiteral] using hv
    obtain rfl | rfl | rfl | ⟨k, rfl⟩ := hl <;> simp [asmWellFormed, hbyte]

end Sys2Proof.Machine
